-- ==== Sys2Proof/Word.lean ====
section
/-! DEFINITION. The word types of the NW2415: the byte of the two serial ports (R163) and the 32-bit word of
the head ring (R117). -/

namespace Sys2Proof

/-- One byte of a port frame or of a reply (R163). -/
abbrev Byte := BitVec 8

/-- One frame of the head ring, bit 31 sent first (R117, R170). -/
abbrev RingWord := BitVec 32

end Sys2Proof
end

