-- ==== Sys2Proof/Syntax.lean ====
section
/-! DEFINITION. The commands of the NW2415, one constructor for each row of spec/opcode_table.json, with the
operands the row carries. A frame command holds the fields of its payload as R167 lays them out (the bytes
themselves are read by `decodeFrame` in Decode.lean); an event row holds what the event brings with it. -/

namespace Sys2Proof

/-- The two serial ports: port P (panel) and port M (motion). -/
inductive Port where
  | p
  | m
  deriving DecidableEq, Repr, Inhabited

/-- The two ends of the head ring on the part. -/
inductive RingEnd where
  | a
  | b
  deriving DecidableEq, Repr, Inhabited

/-- The internal requesters of the Design Store, in the order of their precedence (R14). Port P, the fifth
requester, makes no pause and has no constructor here. -/
inductive Requester where
  | sequencer
  | trace
  | walk
  | closeScan
  deriving DecidableEq, Repr, Inhabited

/-- The frame errors, in the order in which R166 tests them. -/
inductive FrameError where
  | unknown
  | short
  | check
  | long
  | notPermitted
  deriving DecidableEq, Repr, Inhabited

/-- The kinds of a stitch record (R1). -/
inductive RecordKind where
  | stitch
  | jump
  | trim
  | colour
  | pause
  | endRecord
  deriving DecidableEq, Repr, Inhabited

/-- The content of one record position of the store: kind, SLOW flag and deltas in du (R1). -/
structure StitchRecord where
  kind : RecordKind
  slow : Bool
  dx : Int
  dy : Int
  deriving DecidableEq, Repr, Inhabited

/-- What a run does on entering a colour block (R21). -/
inductive ColourAction where
  | auto
  | stop
  deriving DecidableEq, Repr, Inhabited

/-- A defined colour table entry: the needle and the action (R21). -/
structure ColourEntry where
  needle : Nat
  action : ColourAction
  deriving DecidableEq, Repr, Inhabited

/-- How a frame begins (R164): the number of whole bytes it will have, and whether it begins before the reply of the frame
before it is placed. -/
structure FrameStart where
  bytes : Nat
  early : Bool
  deriving DecidableEq, Repr, Inhabited

/-- A stitch record as a WRITE_RECORDS frame carries it (R169): the kind code of 4 bits, the flag bits of 4
bits and the two signed deltas. Byte 1 is ignored when written, so it is no field here. -/
structure WireRecord where
  kindCode : Nat
  flags : Nat
  dx : Int
  dy : Int
  deriving DecidableEq, Repr, Inhabited

/-- The machine constants as a SET_CONSTANTS frame carries them, before any range check (R171). -/
structure ConstantsFrame where
  nHeads : Nat
  needles : Nat
  xmin : Nat
  xmax : Nat
  ymin : Nat
  ymax : Nat
  maxStep : Nat
  bands : List (Nat × Nat)
  startSpeed : Nat
  ramp : Nat
  motionLimit : Nat
  tensionLimit : Nat
  backstep : Nat
  faultPolicy : Nat
  trimAtChange : Nat
  changeTime : Nat
  deriving DecidableEq, Repr, Inhabited

/-- The commands and events of the part, one for each row of the table. -/
inductive Instr where
  | openDesign (slot len : Nat)
  | writeRecords (slot index : Nat) (records : List WireRecord)
  | readRecords (slot index count : Nat)
  | portStoreAccessDone
  | requestPauseExpiry (r : Requester)
  | setColours (slot first : Nat) (entries : List ColourEntry)
  | readColours (slot first count : Nat)
  | readSlot (slot : Nat)
  | closeDesign (slot : Nat)
  | closeScanReadDone
  | delete (slot : Nat)
  | keep (slot : Nat) (on : Bool)
  | clearFaultRecord
  | arm (slot sx sy angle : Nat) (mirror : Bool) (ox oy nowX nowY : Nat)
  | traceReadDone
  | start
  | stop (port : Port)
  | disarm
  | setSpeed (value : Nat)
  | readRun
  | prepareTurn
  | prepareReadDone
  | fetchMoves (max : Nat)
  | done (seq : Nat)
  | stopped (form seq : Nat)
  | walk (mode n : Nat)
  | walkReadDone
  | repair
  | readRepairs (first count : Nat)
  | broadcastSent
  | changeDeadline
  | setInhibit (head : Nat) (needles : BitVec 16)
  | ringTransactionStart
  | ringAnswer (ringEnd : RingEnd) (frame : RingWord)
  | ringTimeout
  | ringStart
  | headOff (head : Nat)
  | headOn (head : Nat)
  | readHeads (first count : Nat)
  | readEvents (n : Nat)
  | setClass (kind : Nat) (log attend : Bool)
  | setTime (value unit : Nat)
  | timeTagTick
  | setConstants (record : ConstantsFrame)
  | readConstants
  | readStatus (port : Port)
  | readPortErrors (port : Port)
  | nop (port : Port)
  | identify (port : Port)
  | frameError (port : Port) (error : FrameError)
  | reset
  | frameAcceptReady
  | storeBitChange (chunk : Nat) (bits : List Nat)
  | chipSelectAssert (port : Port) (start : FrameStart)
  | resetRelease
  deriving DecidableEq, Repr, Inhabited

end Sys2Proof
end

