-- ==== Sys2Proof/Config.lean ====
section
/-! DEFINITION. What the part fixes for good (the counts of the store, the tables and the queues) and the free
values: values the spec leaves open, held here as constants without a body, so that no proof can rest on one. -/

namespace Sys2Proof.Config

/-- Store blocks (chapter 1, 1.1). -/
def blocks : Nat := 512
/-- Record positions of a block (chapter 1, 1.1). -/
def blockPositions : Nat := 512
/-- Chunks of a block (chapter 1, 1.1). -/
def blockChunks : Nat := 128
/-- Chunks of the whole store (chapter 1, 1.1). -/
def storeChunks : Nat := 65536
/-- Content bits of one record position: 8 bytes (R1, R3). -/
def positionBits : Nat := 64
/-- Content bits of a chunk: 32 bytes (R3). -/
def contentBits : Nat := 256
/-- Content bits and check code bits of a chunk: 256 and 10 (R3). -/
def chunkBits : Nat := 266
/-- The longest design (R18, R25). -/
def maxLength : Nat := 131072
/-- Tokens of the Move Queue (R78). -/
def queueTokens : Nat := 64
/-- Issued tokens of the Move Queue (R78). -/
def issuedTokens : Nat := 32
/-- Prepared tokens at which low water ends (R81). -/
def lowWaterTokens : Nat := 16
/-- Entries of the Event Queue (R155). -/
def eventEntries : Nat := 64
/-- Entries of the Event Queue that assert the port P line whatever their class (R161). -/
def attentionEntries : Nat := 32
/-- SKIP entries of the Repair List (R145). -/
def skipShare : Nat := 24
/-- Head numbers 1 to 24. -/
def headCount : Nat := 24

/-- How a chunk's content compares with its check code (R3). -/
inductive CheckOutcome where
  | clean
  | corrected
  | uncorrectable
  deriving DecidableEq, Repr, Inhabited

/-- FREE VALUE (log 2): the outcome the store finds in a COMPLETE chunk of which three or more bits have
changed. R3: it may be reported as any of the three outcomes. The arguments are the four records last written
and the numbers of the changed bits. -/
opaque manyBitOutcome : List StitchRecord → List Nat → CheckOutcome

/-- FREE VALUE (log 2): the record the store delivers for one position of a COMPLETE chunk of which three or
more bits have changed and which is not found uncorrectable, but for a position of a chunk found clean none of whose own
bits has changed, which delivers the record written. The arguments are the four records last written, the numbers of the
changed bits and the position. -/
opaque manyBitRecord : List StitchRecord → List Nat → Nat → StitchRecord

/-- FREE VALUE (log 3): the content of a position of a chunk that is not COMPLETE, after bits of that position
have changed. No check code covers it, and the spec gives no layout of the eight bytes. -/
opaque uncheckedRecord : StitchRecord → List Nat → StitchRecord

/-- FREE VALUE (log 4): the byte that carries the kinds set of the access fault record in the reply to
CLEAR_FAULT_RECORD, of which R167 gives no code (ABSENT, LENGTH, READ_ONLY, UNCORRECTABLE). -/
opaque faultKindsByte : Bool → Bool → Bool → Bool → Byte

/-- FREE VALUE (log 5): the entry read for a colour block whose entry is undefined. R105 says that it cannot be;
only content changed in three or more bits can lead the current colour block to such an entry. -/
opaque unstatedColour : Nat → Nat → ColourEntry

end Sys2Proof.Config
end

