-- ==== Sys2Proof/Machine/State.lean ====
section
/-! DEFINITION. The state of the NW2415: plain data, every register, record, queue and table the spec gives the
part, the queue of waiting commands, and the state right after reset. -/

namespace Sys2Proof.Machine

open Sys2Proof

/-- Sparse data by number: (number, value) pairs in ONE canonical form, numbers strictly rising and no value equal
to what an unlisted number reads as (the operations are in Machine/Tables.lean). -/
abbrev Table (α : Type) := List (Nat × α)

/-- A pair of coordinates: a design position in du, or a frame position, target or move in fu (3.1). -/
structure Point where
  x : Int
  y : Int
  deriving DecidableEq, Repr, Inhabited

/-! ### The part as a whole (R173) -/

/-- Where the part stands with the reset input: held in reset, released and waiting 50 µs, or taking frames. -/
inductive Power where
  | held
  | waiting
  | ready
  deriving DecidableEq, Repr, Inhabited

/-! ### The Design Store (chapter 1) -/

/-- One record position of a chunk: outside the written set, in it as padding, or in it with the record that a
write request put there (R1, R2). -/
inductive Cell where
  | blank
  | padding
  | written (r : StitchRecord)
  deriving DecidableEq, Repr, Inhabited

/-- One chunk: its four positions, and the numbers of the bits that have changed in the memory since they were
written (rising; 64·p to 64·p+63 are the bits of position p, 256 to 265 those of the check code). The check code
itself is not a number here: R3 gives no code word, and `changed` is what the comparison of content and code sees
(log 1). -/
structure Chunk where
  c0 : Cell
  c1 : Cell
  c2 : Cell
  c3 : Cell
  changed : List Nat
  deriving DecidableEq, Repr, Inhabited

/-- The BLANK chunk with an empty written set (R17); an unlisted chunk reads as this. -/
def Chunk.reset : Chunk := { c0 := .blank, c1 := .blank, c2 := .blank, c3 := .blank, changed := [] }

/-- A chunk read asked of the store: the physical chunk number and the record index it is wanted for. -/
structure StoreRead where
  chunk : Nat
  index : Nat
  deriving DecidableEq, Repr, Inhabited

/-- An internal requester at the arbiter (R14, R16): no request, one waiting, one being served (`live` no when
the operation that made it has ended since), or in the 2 µs pause after an access. -/
inductive RequestState where
  | idle
  | waiting (read : StoreRead)
  | served (read : StoreRead) (live : Bool)
  | pausing
  deriving DecidableEq, Repr, Inhabited

/-- The positions of one chunk that a port P request covers: the physical chunk number, the record index of the
chunk's position 0, and the covered positions in ascending order (R20). -/
structure Span where
  chunk : Nat
  first : Nat
  positions : List Nat
  deriving DecidableEq, Repr, Inhabited

/-- The store request of one port P record frame (R4, R8, R15): `write` holds the records of a write request and
is absent for a read; `replyLost` is yes when a later frame has started on port P, so that the reply of this one
is no longer placed. -/
structure PortAccess where
  slot : Nat
  index : Nat
  count : Nat
  spans : List Span
  write : Option (List StitchRecord)
  replyLost : Bool
  deriving DecidableEq, Repr, Inhabited

/-- Who holds the access path (R13). -/
inductive PathHolder where
  | internal (r : Requester)
  | portP
  deriving DecidableEq, Repr, Inhabited

/-- The store arbiter: the holder of the access path, the four internal requesters and the request of port P. -/
structure Arbiter where
  holder : Option PathHolder
  sequencer : RequestState
  trace : RequestState
  walk : RequestState
  closeScan : RequestState
  portP : Option PortAccess
  deriving DecidableEq, Repr, Inhabited

/-- The path free and no request (R17). -/
def Arbiter.reset : Arbiter :=
  { holder := none, sequencer := .idle, trace := .idle, walk := .idle, closeScan := .idle, portP := none }

/-! ### The Slot Table (chapter 2) -/

/-- The slot states (R19). -/
inductive SlotState where
  | empty
  | loading
  | closing
  | ready
  | damaged
  deriving DecidableEq, Repr, Inhabited

/-- The least and greatest design position on each axis (R18). -/
structure Extents where
  xmin : Int
  xmax : Int
  ymin : Int
  ymax : Int
  deriving DecidableEq, Repr, Inhabited

/-- Extents of 0 on every side (R18, R32). -/
def Extents.zero : Extents := { xmin := 0, xmax := 0, ymin := 0, ymax := 0 }

/-- One slot record (R18). An unlisted colour block is an undefined entry. -/
structure SlotRecord where
  state : SlotState
  length : Nat
  blockMap : List Nat
  keep : Bool
  armed : Bool
  colours : Table (Option ColourEntry)
  colourCount : Nat
  stitchCount : Nat
  extents : Extents
  deriving DecidableEq, Repr, Inhabited

/-- The EMPTY slot (R18); an unlisted slot reads as this. -/
def SlotRecord.reset : SlotRecord :=
  { state := .empty, length := 0, blockMap := [], keep := false, armed := false, colours := [],
    colourCount := 0, stitchCount := 0, extents := .zero }

/-- The sources of an access fault (R23). -/
inductive FaultSource where
  | portP
  | sequencer
  | trace
  | walk
  | closeScan
  deriving DecidableEq, Repr, Inhabited

/-- The commands an access fault names (R23). -/
inductive FaultCommand where
  | writeRecords
  | readRecords
  | closeDesign
  | arm
  | walk
  | repair
  deriving DecidableEq, Repr, Inhabited

/-- The set of fault kinds (R22, R23). -/
structure FaultKinds where
  absent : Bool
  length : Bool
  readOnly : Bool
  uncorrectable : Bool
  deriving DecidableEq, Repr, Inhabited

/-- The access fault record (R23). -/
structure AccessFault where
  frozen : Bool
  source : Option FaultSource
  command : Option FaultCommand
  slot : Option Nat
  index : Option Nat
  kinds : FaultKinds
  deriving DecidableEq, Repr, Inhabited

/-- The unfrozen and empty access fault record (R23). -/
def AccessFault.reset : AccessFault :=
  { frozen := false, source := none, command := none, slot := none, index := none,
    kinds := { absent := false, length := false, readOnly := false, uncorrectable := false } }

/-- The close scan in progress (R32, R33): its slot, the index of the next record, the design position, the
counts and the extents found so far. -/
structure CloseScan where
  slot : Nat
  index : Nat
  position : Point
  colours : Nat
  stitches : Nat
  extents : Extents
  deriving DecidableEq, Repr, Inhabited

/-! ### The run (chapters 3 and 4) -/

/-- The ten run states in the order of their status codes (R165). -/
inductive RunState where
  | idle
  | arming
  | armed
  | running
  | stopping
  | paused
  | changing
  | walking
  | finished
  | fault
  deriving DecidableEq, Repr, Inhabited

/-- The pass kinds (R58). -/
inductive PassKind where
  | main
  | repair
  deriving DecidableEq, Repr, Inhabited

/-- The stop reasons in the order of their codes (R59, R156). -/
inductive StopReason where
  | none
  | panel
  | motionRequest
  | motion
  | fault
  | headLost
  | memory
  | repairDone
  | pause
  | endOfDesign
  | colourStop
  | noHeads
  | repairListFull
  deriving DecidableEq, Repr, Inhabited

/-- The transform of a run with the sine and cosine found from its angle (R39, R41). -/
structure Transform where
  sx : Nat
  sy : Nat
  angle : Nat
  mirror : Bool
  ox : Int
  oy : Int
  sine : Int
  cosine : Int
  deriving DecidableEq, Repr, Inhabited

/-- The transform after reset (R39), with the pair of angle 0 (R41). -/
def Transform.reset : Transform :=
  { sx := 1024, sy := 1024, angle := 0, mirror := false, ox := 0, oy := 0, sine := 0, cosine := 16384 }

/-- The run record (R58). -/
structure RunRecord where
  state : RunState
  armedSlot : Option Nat
  transform : Transform
  pass : PassKind
  cursor : Nat
  design : Point
  frame : Point
  colourBlock : Nat
  needle : Nat
  speed : Nat
  stopReason : StopReason
  outstanding : Bool
  faultChunk : Option Nat
  deriving DecidableEq, Repr, Inhabited

/-- The run record after reset (R58). -/
def RunRecord.reset : RunRecord :=
  { state := .idle, armedSlot := none, transform := .reset, pass := .main, cursor := 0, design := ⟨0, 0⟩,
    frame := ⟨0, 0⟩, colourBlock := 0, needle := 0, speed := 600, stopReason := .none, outstanding := false,
    faultChunk := none }

/-- The arm trace in progress (R55): the index of the next record and the design position. -/
structure ArmTrace where
  index : Nat
  position : Point
  deriving DecidableEq, Repr, Inhabited

/-- The commands that start a walk (R93). -/
inductive WalkRequester where
  | walk
  | repair
  deriving DecidableEq, Repr, Inhabited

/-- The walk modes in the order of their codes (R93, R167). -/
inductive WalkMode where
  | back
  | forward
  | toIndex
  | toBlock
  deriving DecidableEq, Repr, Inhabited

/-- The direction of a walk (R95). -/
inductive WalkDirection where
  | back
  | forward
  | stay
  deriving DecidableEq, Repr, Inhabited

/-- The walk record (R93). Its read pending is the walk's request at the arbiter. `deferredSkips` holds the heads
whose SKIP entry R116 defers to the end of the walk, and `listEmptied` is yes once the Repair List of a repair pass has
become empty during the walk with the executed cursor below L (R102, R153). -/
structure WalkRecord where
  requester : WalkRequester
  mode : WalkMode
  goal : Nat
  direction : WalkDirection
  cursor : Nat
  design : Point
  colourBlock : Nat
  stitches : Nat
  deferredSkips : List Nat
  listEmptied : Bool
  deriving DecidableEq, Repr, Inhabited

/-! ### The Stitch Sequencer and the Move Queue (chapters 3 and 5) -/

/-- What a split belongs to (R44). -/
inductive SplitOwner where
  | record
  | approach
  deriving DecidableEq, Repr, Inhabited

/-- The split in progress (R44, R46): start, final target, number of pieces and pieces already prepared. -/
structure Split where
  start : Point
  target : Point
  pieces : Nat
  prepared : Nat
  owner : SplitOwner
  deriving DecidableEq, Repr, Inhabited

/-- The halt reasons (R69). -/
inductive HaltReason where
  | colour
  | pause
  | endRecord
  | join
  deriving DecidableEq, Repr, Inhabited

/-- The halt in progress (R79): the halt begun, and whether its TRIM is in the queue. -/
structure HaltInProgress where
  reason : HaltReason
  trimPlaced : Bool
  deriving DecidableEq, Repr, Inhabited

/-- The chunk buffer (R79): the physical chunk number and the records of the last chunk read. -/
structure ChunkBuffer where
  chunk : Nat
  records : List StitchRecord
  deriving DecidableEq, Repr, Inhabited

/-- The Sequencer's state (R44, R58, R79). -/
structure Sequencer where
  cursor : Nat
  design : Point
  frame : Point
  ramp : Nat
  approach : Bool
  split : Option Split
  haltFlag : Bool
  halt : Option HaltInProgress
  buffer : Option ChunkBuffer
  deriving DecidableEq, Repr, Inhabited

/-- The Sequencer after reset (R44, R58, R79). -/
def Sequencer.reset : Sequencer :=
  { cursor := 0, design := ⟨0, 0⟩, frame := ⟨0, 0⟩, ramp := 0, approach := false, split := none,
    haltFlag := false, halt := none, buffer := none }

/-- The token kinds (R76). -/
inductive TokenKind where
  | step
  | travel
  | trim
  | halt
  deriving DecidableEq, Repr, Inhabited

/-- What a token was made for. The spec speaks of approach tokens (R48, R89) and of the TRIM in front of a halt
(R69, R89), which no field of R76 or R77 tells apart; this mark does. -/
inductive TokenRole where
  | record
  | approach
  | haltTrim
  deriving DecidableEq, Repr, Inhabited

/-- A token with its checkpoint (R76, R77). -/
structure Token where
  seq : Nat
  kind : TokenKind
  reason : Option HaltReason
  mx : Int
  my : Int
  ceiling : Option Nat
  index : Nat
  frameAfter : Point
  lastOfRecord : Bool
  designAfter : Point
  role : TokenRole
  deriving DecidableEq, Repr, Inhabited

/-- The Move Queue (R78), oldest token first in each region; `lastDone` absent is the mark NONE. -/
structure MoveQueue where
  issued : List Token
  prepared : List Token
  nextSeq : Nat
  lastDone : Option Nat
  starved : Bool
  deriving DecidableEq, Repr, Inhabited

/-- The Move Queue after reset (R78, R92). -/
def MoveQueue.reset : MoveQueue :=
  { issued := [], prepared := [], nextSeq := 0, lastDone := none, starved := false }

/-! ### The Colour Changer (chapter 7) -/

/-- The actions of a change (R104). -/
inductive ChangeAction where
  | auto
  | stop
  | resume
  | pause
  deriving DecidableEq, Repr, Inhabited

/-- The change record (R104). `deadline` holds the milliseconds from the sending of the selection to the moment at
which the heads still unconfirmed are given up. -/
structure ChangeRecord where
  target : Nat
  action : ChangeAction
  selectionSent : Bool
  confirm : List Nat
  deadline : Option Nat
  listFull : Bool
  deriving DecidableEq, Repr, Inhabited

/-! ### The Head Ring Controller (chapter 8) -/

/-- The ring states in the order of their codes (R118, R172). -/
inductive RingState where
  | down
  | enumerating
  | full
  | split
  deriving DecidableEq, Repr, Inhabited

/-- The ring functions in the order of their codes (R119, R170). -/
inductive RingFunction where
  | assign
  | poll
  | selectNeedle
  | presser
  | lamp
  deriving DecidableEq, Repr, Inhabited

/-- A ring request (R119, R126): function, head id (31 is the broadcast) and data. -/
structure RingRequest where
  function : RingFunction
  head : Nat
  data : Nat
  deriving DecidableEq, Repr, Inhabited

/-- The transaction in flight (R121): the request and the frame sent, the end it went out on and whether it goes
out on both; whether it is a round-robin POLL; whether it began after the selection of the present change was
sent (R107); whether it is the SELECT_NEEDLE broadcast of the present change (R106); whether its head has become
LOST meanwhile (R122, R123); and whether RING_START has discarded its outcome (R128). -/
structure Transaction where
  request : RingRequest
  frame : RingWord
  ringEnd : RingEnd
  bothEnds : Bool
  roundRobin : Bool
  afterSelection : Bool
  ofChange : Bool
  headLost : Bool
  discarded : Bool
  deriving DecidableEq, Repr, Inhabited

/-- Where the enumeration stands (R128, R129). -/
inductive EnumPhase where
  | broadcast
  | fromA (k : Nat)
  | fromB (k : Nat)
  deriving DecidableEq, Repr, Inhabited

/-- The enumeration in progress, with the heads found from each end so far (R129). -/
structure Enumeration where
  phase : EnumPhase
  foundA : Nat
  foundB : Nat
  deriving DecidableEq, Repr, Inhabited

/-- The ring record of one head (R118); path absent is the path none. -/
structure RingRecord where
  path : Option RingEnd
  switched : Bool
  misses : Nat
  deriving DecidableEq, Repr, Inhabited

/-- The ring record after reset (R118). -/
def RingRecord.reset : RingRecord := { path := none, switched := false, misses := 0 }

/-- The Head Ring Controller (R118). -/
structure HeadRing where
  state : RingState
  requests : List RingRequest
  flight : Option Transaction
  pollPointer : Nat
  enumeration : Option Enumeration
  records : Table RingRecord
  deriving DecidableEq, Repr, Inhabited

/-- The ring after reset (R118). -/
def HeadRing.reset : HeadRing :=
  { state := .down, requests := [], flight := none, pollPointer := 0, enumeration := none, records := [] }

/-! ### The Head Supervisor (chapter 9) -/

/-- The head states in the order of R132. -/
inductive HeadState where
  | absent
  | active
  | heldFault
  | heldNeedle
  | heldOperator
  | resting
  | waiting
  | lost
  deriving DecidableEq, Repr, Inhabited

/-- The thread faults (R132, R145). -/
inductive ThreadFault where
  | breakFault
  | tension
  deriving DecidableEq, Repr, Inhabited

/-- The causes of a lost head in the order of their codes (R132, R156). -/
inductive LossCause where
  | ring
  | needle
  | board
  | absentAtStart
  deriving DecidableEq, Repr, Inhabited

/-- The cause held with a head state (R132). -/
inductive HeadCause where
  | thread (f : ThreadFault)
  | loss (c : LossCause)
  deriving DecidableEq, Repr, Inhabited

/-- One head record (R132). -/
structure HeadRecord where
  state : HeadState
  cause : Option HeadCause
  needle : Nat
  presserUp : Bool
  noMotion : Nat
  tension : Nat
  lastMotion : Nat
  bobbinWarned : Bool
  joinIndex : Option Nat
  deriving DecidableEq, Repr, Inhabited

/-- The head record after reset (R132). -/
def HeadRecord.reset : HeadRecord :=
  { state := .absent, cause := none, needle := 0, presserUp := false, noMotion := 0, tension := 0,
    lastMotion := 0, bobbinWarned := false, joinIndex := none }

/-! ### The Repair List (chapter 10) -/

/-- The kinds of a repair entry (R145). -/
inductive RepairKind where
  | fault (cause : ThreadFault)
  | skip
  deriving DecidableEq, Repr, Inhabited

/-- One repair entry (R145); `toIndex` absent is open for a SKIP entry. -/
structure RepairEntry where
  head : Nat
  kind : RepairKind
  fromIndex : Nat
  toBlock : Option Nat
  toIndex : Option Nat
  deferred : Option Nat
  sewing : Bool
  deriving DecidableEq, Repr, Inhabited

/-! ### The Event Queue and the time tag (chapter 11) -/

/-- The 24 event kinds in the order of their codes (R156, R167). -/
inductive EventKind where
  | threadBreak
  | tensionFault
  | bobbinLow
  | headLost
  | headSwitch
  | ringPath
  | ringDone
  | changeDone
  | colourStop
  | pauseRecord
  | designEnd
  | repairDone
  | runStopped
  | queueStarved
  | noHeads
  | repairListFull
  | memoryCorrected
  | memoryFault
  | closeDone
  | closeFailed
  | armDone
  | armFailed
  | walkDone
  | timeTagWrap
  deriving DecidableEq, Repr, Inhabited

/-- One event entry (R155). -/
structure EventEntry where
  kind : EventKind
  head : Nat
  param : BitVec 32
  cursor : Nat
  time : Nat
  gap : Bool
  target : Option Point
  deriving DecidableEq, Repr, Inhabited

/-- The two flags of an event kind (R159). -/
structure ClassFlags where
  log : Bool
  attend : Bool
  deriving DecidableEq, Repr, Inhabited

/-- The time tag and its unit in ms (R160). -/
structure TimeTag where
  value : Nat
  unit : Nat
  deriving DecidableEq, Repr, Inhabited

/-- The time tag after reset (R160). -/
def TimeTag.reset : TimeTag := { value := 0, unit := 1 }

/-! ### The ports and the machine constants (chapter 12) -/

/-- The reply codes in the order of their numbers (R168). -/
inductive ReplyCode where
  | ok
  | accepted
  | none
  | busy
  | state
  | range
  | absent
  | length
  | readOnly
  | inUse
  | noSpace
  | kept
  | locked
  | sequence
  | incomplete
  | noHeads
  | inhibited
  | invalid
  | uncorrectable
  | frame
  deriving DecidableEq, Repr, Inhabited

/-- A reply (R164) as it was placed: status byte, code and payload; its CRC byte is computed as it goes out. -/
structure Reply where
  status : Byte
  code : ReplyCode
  payload : List Byte
  deriving DecidableEq, Repr, Inhabited

/-- The reply buffer of a port (R164): the NONE reply of a reset, whose status byte is taken when it goes out; a
reply placed; or no reply, the last one consumed and the next not yet placed. -/
inductive ReplyBuffer where
  | noneAfterReset
  | held (reply : Reply)
  | empty
  deriving DecidableEq, Repr, Inhabited

/-- Whether a frame is in progress on a port, and whether it began while the part takes frames (R164, R173). -/
inductive FrameMark where
  | closed
  | begun
  | ignored
  deriving DecidableEq, Repr, Inhabited

/-- The five flags of a port error record (R166). -/
structure PortErrors where
  short : Bool
  long : Bool
  check : Bool
  unknown : Bool
  notPermitted : Bool
  deriving DecidableEq, Repr, Inhabited

/-- The port error record with every flag clear (R166). -/
def PortErrors.clear : PortErrors :=
  { short := false, long := false, check := false, unknown := false, notPermitted := false }

/-- One port interface: the reply buffer, the port error record, the frame in progress, and the bytes shifted out
during the frame that began last (R164). -/
structure PortState where
  reply : ReplyBuffer
  errors : PortErrors
  frame : FrameMark
  shiftedOut : List Byte
  deriving DecidableEq, Repr, Inhabited

/-- A port after reset (R164, R166). -/
def PortState.reset : PortState :=
  { reply := .noneAfterReset, errors := .clear, frame := .closed, shiftedOut := [] }

/-- What a thread fault does to the machine (R139, R171). -/
inductive FaultPolicy where
  | continueRun
  | stopAll
  deriving DecidableEq, Repr, Inhabited

/-- The machine constants record (R171): `maxStep` is M, `ramp` R, `motionLimit` K, `tensionLimit` Q,
`backstep` B and `changeTime` T_CC. -/
structure Constants where
  nHeads : Nat
  needles : Nat
  xmin : Nat
  xmax : Nat
  ymin : Nat
  ymax : Nat
  maxStep : Nat
  bands : List (Nat × Nat)
  startSpeed : Nat
  ramp : Nat
  motionLimit : Nat
  tensionLimit : Nat
  backstep : Nat
  faultPolicy : FaultPolicy
  trimAtChange : Bool
  changeTime : Nat
  deriving DecidableEq, Repr, Inhabited

/-- The machine constants after reset (R171, R49). -/
def Constants.reset : Constants :=
  { nHeads := 1, needles := 15, xmin := 0, xmax := 40000, ymin := 0, ymax := 24000, maxStep := 480,
    bands := [(80, 1200), (160, 1100), (240, 1000), (320, 900), (400, 800), (480, 700), (640, 600), (65535, 400)],
    startSpeed := 400, ramp := 5, motionLimit := 5, tensionLimit := 3, backstep := 3,
    faultPolicy := .continueRun, trimAtChange := true, changeTime := 800 }

/-! ### The whole state -/

/-- The state of the part. The run-lock (R11) is the block map of the slot named in `run.armedSlot` and is not
held twice; the attention lines (R161, R162) and low water (R81) are functions of the state and are not held. -/
structure State where
  power : Power
  portP : PortState
  portM : PortState
  constants : Constants
  store : Table Chunk
  pool : List Nat
  slots : Table SlotRecord
  faultRecord : AccessFault
  arbiter : Arbiter
  scan : Option CloseScan
  trace : Option ArmTrace
  walk : Option WalkRecord
  run : RunRecord
  seq : Sequencer
  queue : MoveQueue
  change : Option ChangeRecord
  ring : HeadRing
  heads : Table HeadRecord
  inhibit : Table (BitVec 16)
  repairs : List RepairEntry
  events : List EventEntry
  classes : Table ClassFlags
  timeTag : TimeTag
  pending : List Instr
  deriving DecidableEq, Repr, Inhabited

/-! ### One update for each field -/

/-- `s` with a new `power`. -/
def State.withPower (s : State) (v : Power) : State := { s with power := v }
/-- `s` with a new `portP`. -/
def State.withPortP (s : State) (v : PortState) : State := { s with portP := v }
/-- `s` with a new `portM`. -/
def State.withPortM (s : State) (v : PortState) : State := { s with portM := v }
/-- `s` with a new `constants`. -/
def State.withConstants (s : State) (v : Constants) : State := { s with constants := v }
/-- `s` with a new `store`. -/
def State.withStore (s : State) (v : Table Chunk) : State := { s with store := v }
/-- `s` with a new `pool`. -/
def State.withPool (s : State) (v : List Nat) : State := { s with pool := v }
/-- `s` with a new `slots`. -/
def State.withSlots (s : State) (v : Table SlotRecord) : State := { s with slots := v }
/-- `s` with a new `faultRecord`. -/
def State.withFaultRecord (s : State) (v : AccessFault) : State := { s with faultRecord := v }
/-- `s` with a new `arbiter`. -/
def State.withArbiter (s : State) (v : Arbiter) : State := { s with arbiter := v }
/-- `s` with a new `scan`. -/
def State.withScan (s : State) (v : Option CloseScan) : State := { s with scan := v }
/-- `s` with a new `trace`. -/
def State.withTrace (s : State) (v : Option ArmTrace) : State := { s with trace := v }
/-- `s` with a new `walk`. -/
def State.withWalk (s : State) (v : Option WalkRecord) : State := { s with walk := v }
/-- `s` with a new `run`. -/
def State.withRun (s : State) (v : RunRecord) : State := { s with run := v }
/-- `s` with a new `seq`. -/
def State.withSeq (s : State) (v : Sequencer) : State := { s with seq := v }
/-- `s` with a new `queue`. -/
def State.withQueue (s : State) (v : MoveQueue) : State := { s with queue := v }
/-- `s` with a new `change`. -/
def State.withChange (s : State) (v : Option ChangeRecord) : State := { s with change := v }
/-- `s` with a new `ring`. -/
def State.withRing (s : State) (v : HeadRing) : State := { s with ring := v }
/-- `s` with a new `heads`. -/
def State.withHeads (s : State) (v : Table HeadRecord) : State := { s with heads := v }
/-- `s` with a new `inhibit`. -/
def State.withInhibit (s : State) (v : Table (BitVec 16)) : State := { s with inhibit := v }
/-- `s` with a new `repairs`. -/
def State.withRepairs (s : State) (v : List RepairEntry) : State := { s with repairs := v }
/-- `s` with a new `events`. -/
def State.withEvents (s : State) (v : List EventEntry) : State := { s with events := v }
/-- `s` with a new `classes`. -/
def State.withClasses (s : State) (v : Table ClassFlags) : State := { s with classes := v }
/-- `s` with a new `timeTag`. -/
def State.withTimeTag (s : State) (v : TimeTag) : State := { s with timeTag := v }
/-- `s` with a new `pending`. -/
def State.withPending (s : State) (v : List Instr) : State := { s with pending := v }

/-- The reasons a step stops with a fault. The part has none: every command and event of the table has an effect
that the spec gives, so the type has no constructor and no step can fault (safe: nothing is cut short). -/
inductive Fault where
  deriving DecidableEq, Repr

/-- The reasons a step is refused. -/
inductive Refusal where
  /-- Raised by an arm of `exec` whose command has no meaning yet; no arm raises it (safe). -/
  | notModelled (mnemonic : String)
  deriving DecidableEq, Repr, Inhabited

/-- The part right after reset: the reset input still held, every block in the reset state stated where its state
is specified (R173), and no command waiting. -/
def State.reset : State :=
  { power := .held, portP := .reset, portM := .reset, constants := .reset, store := [],
    pool := List.range Config.blocks, slots := [], faultRecord := .reset, arbiter := .reset, scan := none,
    trace := none, walk := none, run := .reset, seq := .reset, queue := .reset, change := none, ring := .reset,
    heads := [], inhibit := [], repairs := [], events := [], classes := [], timeTag := .reset, pending := [] }

end Sys2Proof.Machine
end

