-- ==== Sys2Proof/Machine/Tables.lean ====
section
/-! DEFINITION. The operations over sparse tables (the Design Store, the slots, the colour tables, the head and
ring records, the inhibit rows, the event classes), and the accessors that read and write each of them. -/

namespace Sys2Proof.Machine

open Sys2Proof

/-- What a table holds at number `k`: its entry, or what an unlisted number reads as. -/
def Table.get {α : Type} (dflt : Nat → α) : Table α → Nat → α
  | [], k => dflt k
  | (a, v) :: rest, k => if a = k then v else Table.get dflt rest k

/-- Puts an entry at its place in rising order. -/
def Table.place {α : Type} (k : Nat) (v : α) : Table α → Table α
  | [] => [(k, v)]
  | (a, w) :: rest => if k < a then (k, v) :: (a, w) :: rest else (a, w) :: Table.place k v rest

/-- The table without number `k`. -/
def Table.erase {α : Type} (k : Nat) (t : Table α) : Table α := t.filter fun e => e.1 ≠ k

/-- Writes `v` at number `k` and keeps the canonical form: an entry equal to the default is not listed. -/
def Table.set {α : Type} [DecidableEq α] (dflt : Nat → α) (k : Nat) (v : α) (t : Table α) : Table α :=
  if v = dflt k then Table.erase k t else Table.place k v (Table.erase k t)

/-- The canonical form: numbers strictly rising, and no entry equal to what an unlisted number reads as. -/
def Table.wf {α : Type} [DecidableEq α] (dflt : Nat → α) (t : Table α) : Bool :=
  decide (t.Pairwise fun a b => a.1 < b.1) && t.all fun e => decide (e.2 ≠ dflt e.1)

/-- Head numbers 1 to 24 in ascending order. -/
def headNumbers : List Nat := (List.range Config.headCount).map (· + 1)

/-! ### The Design Store -/

/-- Chunk `n` of the store, by its physical chunk number; an unlisted chunk is BLANK (R17). -/
def State.chunk (s : State) (n : Nat) : Chunk := Table.get (fun _ => Chunk.reset) s.store n

/-- Writes chunk `n` of the store. -/
def State.putChunk (s : State) (n : Nat) (c : Chunk) : State :=
  s.withStore (Table.set (fun _ => Chunk.reset) n c s.store)

/-! ### Slots -/

/-- Slot record `k` (R18). -/
def State.slot (s : State) (k : Nat) : SlotRecord := Table.get (fun _ => SlotRecord.reset) s.slots k

/-- Writes slot record `k`. -/
def State.putSlot (s : State) (k : Nat) (r : SlotRecord) : State :=
  s.withSlots (Table.set (fun _ => SlotRecord.reset) k r s.slots)

/-- Colour table entry `b` of a slot; absent is undefined (R21). -/
def SlotRecord.colour (r : SlotRecord) (b : Nat) : Option ColourEntry := Table.get (fun _ => none) r.colours b

/-- Defines colour table entry `b` of a slot (R29). -/
def SlotRecord.putColour (r : SlotRecord) (b : Nat) (e : ColourEntry) : SlotRecord :=
  { r with colours := Table.set (fun _ => none) b (some e) r.colours }

/-! ### Heads -/

/-- Head record `h` (R132). -/
def State.head (s : State) (h : Nat) : HeadRecord := Table.get (fun _ => HeadRecord.reset) s.heads h

/-- Writes head record `h`. -/
def State.putHead (s : State) (h : Nat) (r : HeadRecord) : State :=
  s.withHeads (Table.set (fun _ => HeadRecord.reset) h r s.heads)

/-- The row of the needle inhibit matrix of head `h`: bit k is set when needle k is inhibited (R115). -/
def State.inhibitRow (s : State) (h : Nat) : BitVec 16 := Table.get (fun _ => 0) s.inhibit h

/-- Writes the row of the needle inhibit matrix of head `h`. -/
def State.putInhibitRow (s : State) (h : Nat) (row : BitVec 16) : State :=
  s.withInhibit (Table.set (fun _ => 0) h row s.inhibit)

/-- Whether the machine needle is inhibited on head `h`. Machine needle 0 equals no needle (R115). -/
def State.barred (s : State) (h : Nat) : Bool :=
  decide (s.run.needle ≠ 0) && (s.inhibitRow h).getLsbD s.run.needle

/-- Whether some head has state `st`. -/
def State.anyHead (s : State) (st : HeadState) : Bool := headNumbers.any fun h => (s.head h).state = st

/-! ### Ring records -/

/-- The ring record of head `h` (R118). -/
def State.ringRecord (s : State) (h : Nat) : RingRecord := Table.get (fun _ => RingRecord.reset) s.ring.records h

/-- Writes the ring record of head `h`. -/
def State.putRingRecord (s : State) (h : Nat) (r : RingRecord) : State :=
  s.withRing { s.ring with records := Table.set (fun _ => RingRecord.reset) h r s.ring.records }

/-! ### Event kinds -/

/-- The number of an event kind, 1 to 24 in the order of R156 (R167). -/
def EventKind.code : EventKind → Nat
  | .threadBreak => 1
  | .tensionFault => 2
  | .bobbinLow => 3
  | .headLost => 4
  | .headSwitch => 5
  | .ringPath => 6
  | .ringDone => 7
  | .changeDone => 8
  | .colourStop => 9
  | .pauseRecord => 10
  | .designEnd => 11
  | .repairDone => 12
  | .runStopped => 13
  | .queueStarved => 14
  | .noHeads => 15
  | .repairListFull => 16
  | .memoryCorrected => 17
  | .memoryFault => 18
  | .closeDone => 19
  | .closeFailed => 20
  | .armDone => 21
  | .armFailed => 22
  | .walkDone => 23
  | .timeTagWrap => 24

/-- The class of an event kind, by its number, after reset (R159): LOG set for every kind, ATTEND clear for
BOBBIN_LOW, HEAD_SWITCH, RING_PATH, RING_DONE, CHANGE_DONE, QUEUE_STARVED, MEMORY_CORRECTED and TIME_TAG_WRAP. -/
def classAfterReset (code : Nat) : ClassFlags :=
  { log := true, attend := !([3, 5, 6, 7, 8, 14, 17, 24].contains code) }

/-- The class flags of the event kind numbered `code` (R159). -/
def State.classOf (s : State) (code : Nat) : ClassFlags := Table.get classAfterReset s.classes code

/-- Writes the class flags of the event kind numbered `code`. -/
def State.putClass (s : State) (code : Nat) (f : ClassFlags) : State :=
  s.withClasses (Table.set classAfterReset code f s.classes)

/-! ### Ports -/

/-- The interface of a port. -/
def State.port (s : State) : Port → PortState
  | .p => s.portP
  | .m => s.portM

/-- Writes the interface of a port. -/
def State.putPort (s : State) (port : Port) (v : PortState) : State :=
  match port with
  | .p => s.withPortP v
  | .m => s.withPortM v

/-! ### The armed design -/

/-- The record of the armed slot; an absent armed slot reads as an EMPTY one. -/
def State.armedRecord (s : State) : SlotRecord :=
  match s.run.armedSlot with
  | some k => s.slot k
  | none => SlotRecord.reset

/-- L of the armed design. -/
def State.designLength (s : State) : Nat := s.armedRecord.length

/-- The colour entry of a block of the armed design as a run reads it (R105); an undefined entry is a free value
(log 5). -/
def State.colourEntry (s : State) (b : Nat) : ColourEntry :=
  (s.armedRecord.colour b).getD (Config.unstatedColour (s.run.armedSlot.getD 0) b)

/-- Relocation of a record index by a block map: the physical chunk number (R20). -/
def chunkOf (map : List Nat) (i : Nat) : Nat :=
  map.getD (i / Config.blockPositions) 0 * Config.blockChunks + i % Config.blockPositions / 4

/-- Whether block `b` is run-locked: it is in the block map of the armed slot (R11). -/
def State.runLocked (s : State) (b : Nat) : Bool := s.armedRecord.blockMap.contains b

end Sys2Proof.Machine
end

