-- ==== Sys2Proof/Machine/Wire.lean ====
section
/-! DEFINITION. The wire: CRC-8 of the ports and CRC-7 of the ring, the order of bytes, the codes of named values,
and the layouts of the central formats (R119, R120, R163, R167 to R170). -/

namespace Sys2Proof.Machine

open Sys2Proof

/-! ### CRC-8 of the ports (R163) -/

/-- One shift of the CRC-8 register: where the bit shifted out is 1, the register is combined with 2Fh. -/
def crc8Shift (r : Byte) : Byte := if r.msb then (r <<< 1) ^^^ 0x2F#8 else r <<< 1

/-- The CRC-8 register after one byte: combined with the byte, then shifted eight times. -/
def crc8Byte (r b : Byte) : Byte :=
  crc8Shift (crc8Shift (crc8Shift (crc8Shift (crc8Shift (crc8Shift (crc8Shift (crc8Shift (r ^^^ b))))))))

/-- The CRC-8 of a string of bytes, from the initial value FFh (R163). -/
def crc8 (bytes : List Byte) : Byte := bytes.foldl crc8Byte 0xFF#8

/-! ### CRC-7 of the ring (R120) -/

/-- One bit into the CRC-7 register: the bit is combined with the highest bit of the register, the register is
shifted, and where the combined value is 1 bits 3 and 0 are inverted. -/
def crc7Bit (r : BitVec 7) (b : Bool) : BitVec 7 :=
  if Bool.xor b r.msb then (r <<< 1) ^^^ 0x09#7 else r <<< 1

/-- The CRC-7 over the bits `n`−1 down to 0 of `w`, the highest first. -/
def crc7From (w : BitVec 25) : Nat → BitVec 7 → BitVec 7
  | 0, r => r
  | n + 1, r => crc7From w n (crc7Bit r (w.getLsbD n))

/-- The CRC-7 over the first 25 bits of a ring frame (R120). -/
def crc7 (w : BitVec 25) : BitVec 7 := crc7From w 25 0

/-! ### Bytes of a field, most significant first (R167) -/

/-- The `w` bytes of an unsigned number, most significant first. -/
def beBytes : Nat → Nat → List Byte
  | 0, _ => []
  | w + 1, n => BitVec.ofNat 8 (n / 256 ^ w) :: beBytes w n

/-- The `w` bytes of a signed number, two's complement. -/
def beSigned (w : Nat) (z : Int) : List Byte := beBytes w (z % (256 ^ w : Nat)).toNat

/-- The number that bytes carry, most significant first. -/
def fromBytes (bytes : List Byte) : Nat := bytes.foldl (fun n b => n * 256 + b.toNat) 0

/-- The signed number that `w` bytes carry, two's complement. -/
def signedOf (w n : Nat) : Int := if n < 256 ^ w / 2 then (n : Int) else (n : Int) - (256 ^ w : Nat)

/-- A flag in a byte of its own: 01h when set, 00h when clear (log 12). -/
def flagByte (b : Bool) : List Byte := [if b then 1#8 else 0#8]

/-- A field that may be absent, NONE, open or undefined: 00h and the value, or 01h and 0 (R167). -/
def optBytes (w : Nat) : Option Nat → List Byte
  | some n => 0#8 :: beBytes w n
  | none => 1#8 :: beBytes w 0

/-! ### Codes of named values -/

/-- R165, bits 3–0 of the status byte. -/
def RunState.code : RunState → Nat
  | .idle => 0
  | .arming => 1
  | .armed => 2
  | .running => 3
  | .stopping => 4
  | .paused => 5
  | .changing => 6
  | .walking => 7
  | .finished => 8
  | .fault => 9

/-- R156, the stop reasons. -/
def StopReason.code : StopReason → Nat
  | .none => 0
  | .panel => 1
  | .motionRequest => 2
  | .motion => 3
  | .fault => 4
  | .headLost => 5
  | .memory => 6
  | .repairDone => 7
  | .pause => 8
  | .endOfDesign => 9
  | .colourStop => 10
  | .noHeads => 11
  | .repairListFull => 12

/-- R168, the reply codes. -/
def ReplyCode.code : ReplyCode → Nat
  | .ok => 0x00
  | .accepted => 0x01
  | .none => 0x02
  | .busy => 0x03
  | .state => 0x04
  | .range => 0x05
  | .absent => 0x06
  | .length => 0x07
  | .readOnly => 0x08
  | .inUse => 0x09
  | .noSpace => 0x0A
  | .kept => 0x0B
  | .locked => 0x0C
  | .sequence => 0x0D
  | .incomplete => 0x0E
  | .noHeads => 0x0F
  | .inhibited => 0x10
  | .invalid => 0x11
  | .uncorrectable => 0x12
  | .frame => 0x13

/-- R166, the sub-codes of the frame errors. -/
def frameSubCode : FrameError → Nat
  | .short => 1
  | .long => 2
  | .check => 3
  | .unknown => 4
  | .notPermitted => 5

/-- R18, by position (R167). -/
def SlotState.code : SlotState → Nat
  | .empty => 0
  | .loading => 1
  | .closing => 2
  | .ready => 3
  | .damaged => 4

/-- R23, by position (R167). -/
def FaultSource.code : FaultSource → Nat
  | .portP => 0
  | .sequencer => 1
  | .trace => 2
  | .walk => 3
  | .closeScan => 4

/-- The command byte of R167. -/
def FaultCommand.code : FaultCommand → Nat
  | .writeRecords => 0x11
  | .readRecords => 0x12
  | .closeDesign => 0x16
  | .arm => 0x20
  | .walk => 0x25
  | .repair => 0x26

/-- R156, the pass kinds. -/
def PassKind.code : PassKind → Nat
  | .main => 0
  | .repair => 1

/-- R104, by position (R167). -/
def ChangeAction.code : ChangeAction → Nat
  | .auto => 0
  | .stop => 1
  | .resume => 2
  | .pause => 3

/-- R167, the action bit of a colour entry. -/
def actionCode : ColourAction → Nat
  | .auto => 0
  | .stop => 1

/-- R132, by position (R167). -/
def HeadState.code : HeadState → Nat
  | .absent => 0
  | .active => 1
  | .heldFault => 2
  | .heldNeedle => 3
  | .heldOperator => 4
  | .resting => 5
  | .waiting => 6
  | .lost => 7

/-- R145, the causes of a FAULT entry by position (R167). -/
def ThreadFault.code : ThreadFault → Nat
  | .breakFault => 0
  | .tension => 1

/-- R156, the causes of HEAD_LOST. -/
def LossCause.code : LossCause → Nat
  | .ring => 0
  | .needle => 1
  | .board => 2
  | .absentAtStart => 3

/-- The code of the cause held with a head state, in the list of its own state (R132). -/
def HeadCause.code : HeadCause → Nat
  | .thread f => f.code
  | .loss c => c.code

/-- R172, the ring states. -/
def RingState.code : RingState → Nat
  | .down => 0
  | .enumerating => 1
  | .full => 2
  | .split => 3

/-- R118, the path of a head by position: A, B; the path none is a field without a value (R167). -/
def pathCode : RingEnd → Nat
  | .a => 0
  | .b => 1

/-- R170, the ring functions. -/
def RingFunction.code : RingFunction → Nat
  | .assign => 0
  | .poll => 1
  | .selectNeedle => 2
  | .presser => 3
  | .lamp => 4

/-- R169, the record kinds. -/
def recordKindCode : RecordKind → Nat
  | .stitch => 1
  | .jump => 2
  | .trim => 3
  | .colour => 4
  | .pause => 5
  | .endRecord => 6

/-- R169: the kind a code names; every other value is an unknown kind. -/
def recordKindOf : Nat → Option RecordKind
  | 1 => some .stitch
  | 2 => some .jump
  | 3 => some .trim
  | 4 => some .colour
  | 5 => some .pause
  | 6 => some .endRecord
  | _ => none

/-- R169, the token kinds. -/
def TokenKind.code : TokenKind → Nat
  | .step => 1
  | .travel => 2
  | .trim => 3
  | .halt => 4

/-- R169, the halt reasons; 0 for other kinds. -/
def haltReasonCode : Option HaltReason → Nat
  | some .colour => 1
  | some .pause => 2
  | some .endRecord => 3
  | some .join => 4
  | none => 0

/-! ### Central formats -/

/-- A stitch record in 6 bytes (R169). -/
def recordBytes (r : StitchRecord) : List Byte :=
  BitVec.ofNat 8 (recordKindCode r.kind * 16 + if r.slow then 1 else 0) :: 0#8 :: (beSigned 2 r.dx ++ beSigned 2 r.dy)

/-- A move token in 11 bytes (R169). -/
def tokenBytes (t : Token) : List Byte :=
  beBytes 2 t.seq ++ [BitVec.ofNat 8 (t.kind.code * 16 + haltReasonCode t.reason)] ++ beSigned 2 t.mx ++
    beSigned 2 t.my ++ beBytes 1 (t.ceiling.getD 0 / 10) ++ beBytes 3 t.index

/-- An event entry in 19 bytes (R170); the target reads 0 in an entry that has none. -/
def eventBytes (e : EventEntry) : List Byte :=
  let target := e.target.getD ⟨0, 0⟩
  beBytes 1 e.kind.code ++ [BitVec.ofNat 8 ((if e.gap then 128 else 0) + e.head)] ++ beBytes 4 e.param.toNat ++
    beBytes 3 e.cursor ++ beBytes 2 e.time ++ beSigned 4 target.x ++ beSigned 4 target.y

/-- The constants record in 54 bytes (R171). -/
def constantsBytes (c : Constants) : List Byte :=
  beBytes 1 c.nHeads ++ beBytes 1 c.needles ++ beBytes 2 c.xmin ++ beBytes 2 c.xmax ++ beBytes 2 c.ymin ++
    beBytes 2 c.ymax ++ beBytes 2 c.maxStep ++ c.bands.flatMap (fun b => beBytes 2 b.1 ++ beBytes 2 b.2) ++
    beBytes 2 c.startSpeed ++ beBytes 1 c.ramp ++ beBytes 1 c.motionLimit ++ beBytes 1 c.tensionLimit ++
    beBytes 1 c.backstep ++ beBytes 1 (match c.faultPolicy with | .continueRun => 0 | .stopAll => 1) ++
    flagByte c.trimAtChange ++ beBytes 2 c.changeTime

/-- The reply as it goes out: status byte, code, payload, and the CRC-8 over them (R164). -/
def replyBytes (r : Reply) : List Byte :=
  let body := r.status :: BitVec.ofNat 8 r.code.code :: r.payload
  body ++ [crc8 body]

/-! ### Ring frames (R119, R120, R170) -/

/-- A request frame: bit 31 clear, head id, function, data and check. -/
def requestFrame (r : RingRequest) : RingWord :=
  let body : BitVec 25 := BitVec.ofNat 25 (r.head * 2 ^ 19 + r.function.code * 2 ^ 16 + r.data)
  body ++ crc7 body

/-- The needle an answer frame reports (R120, bits 22–19). -/
def answerNeedle (w : RingWord) : Nat := (w.extractLsb' 19 4).toNat
/-- THREAD_MOVED of an answer frame (bit 18). -/
def answerThreadMoved (w : RingWord) : Bool := w.getLsbD 18
/-- BOBBIN_LOW of an answer frame (bit 17). -/
def answerBobbinLow (w : RingWord) : Bool := w.getLsbD 17
/-- TENSION_HIGH of an answer frame (bit 16). -/
def answerTensionHigh (w : RingWord) : Bool := w.getLsbD 16
/-- NEEDLE_SETTLED of an answer frame (bit 15). -/
def answerSettled (w : RingWord) : Bool := w.getLsbD 15
/-- PRESSER_UP of an answer frame (bit 14). -/
def answerPresserUp (w : RingWord) : Bool := w.getLsbD 14
/-- HEAD_SWITCH of an answer frame (bit 13). -/
def answerHeadSwitch (w : RingWord) : Bool := w.getLsbD 13
/-- BOARD_FAULT of an answer frame (bit 12). -/
def answerBoardFault (w : RingWord) : Bool := w.getLsbD 12

/-- Whether a frame received on `e` is a good answer to a transaction (R120, R170): bit 31 set, the check agrees,
the head id and the echoed function are those of the request, and it arrives on the end the request was sent on. -/
def goodAnswer (t : Transaction) (e : RingEnd) (w : RingWord) : Bool :=
  w.getLsbD 31 && decide (w.extractLsb' 0 7 = crc7 (w.extractLsb' 7 25)) &&
    decide ((w.extractLsb' 26 5).toNat = t.request.head) &&
    decide ((w.extractLsb' 23 3).toNat = t.request.function.code) && decide (e = t.ringEnd)

end Sys2Proof.Machine
end

