-- ==== Sys2Proof/WellFormed.lean ====
section
/-! DEFINITION. Which commands can be sent: every operand fits the field of the frame that carries it (R167, R169,
R171), a ring end or a store event names what the part has, and a frame error is of a command permitted somewhere. A
value that fits its field and lies outside the range of the command's rule IS well-formed: the rule refuses it. -/

namespace Sys2Proof

/-- Whether a number fits in `w` bytes. -/
def fitsBytes (w n : Nat) : Bool := decide (n < 256 ^ w)

/-- Whether a signed number fits in two bytes (R169). -/
def fitsSigned2 (z : Int) : Bool := decide (-32768 ≤ z ∧ z ≤ 32767)

/-- Whether a stitch record fits its 6 bytes (R169). -/
def WireRecord.wellFormed (r : WireRecord) : Bool :=
  decide (r.kindCode < 16) && decide (r.flags < 16) && fitsSigned2 r.dx && fitsSigned2 r.dy

/-- Whether a colour entry fits its byte: the needle has 4 bits (R167). -/
def ColourEntry.wellFormed (e : ColourEntry) : Bool := decide (e.needle < 16)

/-- Whether a constants record fits its 54 bytes (R171). -/
def ConstantsFrame.wellFormed (c : ConstantsFrame) : Bool :=
  fitsBytes 1 c.nHeads && fitsBytes 1 c.needles && fitsBytes 2 c.xmin && fitsBytes 2 c.xmax && fitsBytes 2 c.ymin &&
    fitsBytes 2 c.ymax && fitsBytes 2 c.maxStep && decide (c.bands.length = 8) &&
    (c.bands.all fun b => fitsBytes 2 b.1 && fitsBytes 2 b.2) && fitsBytes 2 c.startSpeed && fitsBytes 1 c.ramp &&
    fitsBytes 1 c.motionLimit && fitsBytes 1 c.tensionLimit && fitsBytes 1 c.backstep && fitsBytes 1 c.faultPolicy &&
    fitsBytes 1 c.trimAtChange && fitsBytes 2 c.changeTime

/-- Whether every operand of a command fits the field that carries it. -/
def Instr.wellFormed : Instr → Bool
  | .openDesign slot len => fitsBytes 1 slot && fitsBytes 3 len
  | .writeRecords slot index records =>
    fitsBytes 1 slot && fitsBytes 3 index && fitsBytes 1 records.length && records.all WireRecord.wellFormed
  | .readRecords slot index count => fitsBytes 1 slot && fitsBytes 3 index && fitsBytes 1 count
  | .portStoreAccessDone => true
  | .requestPauseExpiry _ => true
  | .setColours slot first entries =>
    fitsBytes 1 slot && fitsBytes 1 first && fitsBytes 1 entries.length && entries.all ColourEntry.wellFormed
  | .readColours slot first count => fitsBytes 1 slot && fitsBytes 1 first && fitsBytes 1 count
  | .readSlot slot => fitsBytes 1 slot
  | .closeDesign slot => fitsBytes 1 slot
  | .closeScanReadDone => true
  | .delete slot => fitsBytes 1 slot
  | .keep slot _ => fitsBytes 1 slot
  | .clearFaultRecord => true
  | .arm slot sx sy angle _ ox oy nowX nowY =>
    fitsBytes 1 slot && fitsBytes 2 sx && fitsBytes 2 sy && fitsBytes 2 angle && fitsBytes 2 ox && fitsBytes 2 oy &&
      fitsBytes 2 nowX && fitsBytes 2 nowY
  | .traceReadDone => true
  | .start => true
  | .stop _ => true
  | .disarm => true
  | .setSpeed value => fitsBytes 2 value
  | .readRun => true
  | .prepareTurn => true
  | .prepareReadDone => true
  | .fetchMoves max => fitsBytes 1 max
  | .done seq => fitsBytes 2 seq
  | .stopped form seq => fitsBytes 1 form && fitsBytes 2 seq
  | .walk mode n => fitsBytes 1 mode && fitsBytes 3 n
  | .walkReadDone => true
  | .repair => true
  | .readRepairs first count => fitsBytes 1 first && fitsBytes 1 count
  | .broadcastSent => true
  | .changeDeadline => true
  | .setInhibit head _ => fitsBytes 1 head
  | .ringTransactionStart => true
  | .ringAnswer _ _ => true
  | .ringTimeout => true
  | .ringStart => true
  | .headOff head => fitsBytes 1 head
  | .headOn head => fitsBytes 1 head
  | .readHeads first count => fitsBytes 1 first && fitsBytes 1 count
  | .readEvents n => fitsBytes 1 n
  | .setClass kind _ _ => fitsBytes 1 kind
  | .setTime value unit => fitsBytes 2 value && fitsBytes 1 unit
  | .timeTagTick => true
  | .setConstants record => record.wellFormed
  | .readConstants => true
  | .readStatus _ => true
  | .readPortErrors _ => true
  | .nop _ => true
  | .identify _ => true
  | .frameError _ _ => true
  | .reset => true
  | .frameAcceptReady => true
  | .storeBitChange chunk bits => decide (chunk < Config.storeChunks) && bits.all fun b => decide (b < Config.chunkBits)
  | .chipSelectAssert _ _ => true
  | .resetRelease => true

end Sys2Proof
end

