-- ==== Sys2Proof/Decode.lean ====
section
/-! DEFINITION. The words and frames of the commands. The table gives no row any bits, so no word of it spells a
command. A port frame does (R163, R166, R167): `decodeFrame` reads the command of a frame, or its frame error, and
`encodeFrame` writes the frame of a command. -/

namespace Sys2Proof

open Sys2Proof.Machine

/-- The command that a word spells by the table's bits. No row of spec/opcode_table.json has any, so there is none. -/
def decodeTableWord (_nbits _w : Nat) : Option Instr := none

/-! ### The shape of a frame (R163, R167) -/

/-- The payload bytes of a command whose payload has a fixed length (R167); absent for WRITE_RECORDS (11h), for
SET_COLOURS (13h) and for a byte that is no command. -/
def fixedPayload (command : Nat) : Option Nat :=
  match command with
  | 0x10 => some 4
  | 0x12 => some 5
  | 0x14 => some 3
  | 0x15 => some 1
  | 0x16 => some 1
  | 0x17 => some 1
  | 0x18 => some 2
  | 0x19 => some 0
  | 0x20 => some 16
  | 0x21 => some 0
  | 0x22 => some 0
  | 0x23 => some 2
  | 0x24 => some 0
  | 0x25 => some 4
  | 0x26 => some 0
  | 0x27 => some 2
  | 0x30 => some 3
  | 0x31 => some 1
  | 0x32 => some 1
  | 0x33 => some 2
  | 0x34 => some 0
  | 0x40 => some 1
  | 0x41 => some 2
  | 0x42 => some 3
  | 0x50 => some 54
  | 0x51 => some 0
  | 0x60 => some 0
  | 0x61 => some 0
  | 0x62 => some 0
  | 0x63 => some 0
  | 0x64 => some 0
  | 0x70 => some 1
  | 0x71 => some 2
  | 0x72 => some 3
  | _ => none

/-- The number that the `w` bytes from byte `at_` of a payload on carry. -/
def field (payload : List Byte) (at_ w : Nat) : Nat := fromBytes ((payload.drop at_).take w)

/-- The payload bytes of a command, given the bytes that follow its command byte: fixed, or by the count byte as given
(R163); absent where the frame ends before that count byte. -/
def payloadLength (command : Nat) (rest : List Byte) : Option Nat :=
  if command = 0x11 then rest[4]?.map fun count => 5 + 6 * count.toNat
  else if command = 0x13 then rest[2]?.map fun count => 3 + count.toNat
  else fixedPayload command

/-- Whether a byte is a command byte (R167). -/
def isCommand (command : Nat) : Bool := decide (command = 0x11) || decide (command = 0x13) || (fixedPayload command).isSome

/-- Whether a command is permitted on a port (R167). -/
def permitted (port : Port) (command : Nat) : Bool :=
  if command = 0x60 ∨ command = 0x61 ∨ command = 0x62 ∨ command = 0x63 ∨ command = 0x64 then true
  else if command = 0x70 ∨ command = 0x71 ∨ command = 0x72 then decide (port = .m)
  else decide (port = .p)

/-! ### Reading a payload (R167, R169, R171) -/

/-- The stitch records of a WRITE_RECORDS payload, 6 bytes each; byte 1 of each is ignored (R169). -/
def wireRecords : List Byte → List WireRecord
  | a :: _ :: x1 :: x0 :: y1 :: y0 :: rest =>
    { kindCode := a.toNat / 16, flags := a.toNat % 16, dx := signedOf 2 (fromBytes [x1, x0]),
      dy := signedOf 2 (fromBytes [y1, y0]) } :: wireRecords rest
  | _ => []

/-- A colour entry of a SET_COLOURS payload: bits 3–0 the needle, bit 7 the action (R167); bits 6–4 are
ignored (log 37). -/
def colourOf (b : Byte) : ColourEntry := { needle := b.toNat % 16, action := if b.msb then .stop else .auto }

/-- The band table of a SET_CONSTANTS payload from byte `at_` on (R171). -/
def bandsOf (payload : List Byte) (at_ : Nat) : Nat → List (Nat × Nat)
  | 0 => []
  | n + 1 => (field payload at_ 2, field payload (at_ + 2) 2) :: bandsOf payload (at_ + 4) n

/-- The constants record of a SET_CONSTANTS payload (R171). -/
def constantsFrameOf (b : List Byte) : ConstantsFrame :=
  { nHeads := field b 0 1, needles := field b 1 1, xmin := field b 2 2, xmax := field b 4 2, ymin := field b 6 2,
    ymax := field b 8 2, maxStep := field b 10 2, bands := bandsOf b 12 8, startSpeed := field b 44 2,
    ramp := field b 46 1, motionLimit := field b 47 1, tensionLimit := field b 48 1, backstep := field b 49 1,
    faultPolicy := field b 50 1, trimAtChange := field b 51 1, changeTime := field b 52 2 }

/-- The command of a command byte with a payload of the right length, on a port (R167). Of the flags byte of SET_CLASS bits
7–2 are ignored (log 37). -/
def commandOf (port : Port) (command : Nat) (b : List Byte) : Option Instr :=
  match command with
  | 0x10 => some (.openDesign (field b 0 1) (field b 1 3))
  | 0x11 => some (.writeRecords (field b 0 1) (field b 1 3) (wireRecords (b.drop 5)))
  | 0x12 => some (.readRecords (field b 0 1) (field b 1 3) (field b 4 1))
  | 0x13 => some (.setColours (field b 0 1) (field b 1 1) ((b.drop 3).map colourOf))
  | 0x14 => some (.readColours (field b 0 1) (field b 1 1) (field b 2 1))
  | 0x15 => some (.readSlot (field b 0 1))
  | 0x16 => some (.closeDesign (field b 0 1))
  | 0x17 => some (.delete (field b 0 1))
  | 0x18 => some (.keep (field b 0 1) (decide (field b 1 1 ≠ 0)))
  | 0x19 => some .clearFaultRecord
  | 0x20 => some (.arm (field b 0 1) (field b 1 2) (field b 3 2) (field b 5 2) (decide (field b 7 1 ≠ 0)) (field b 8 2)
      (field b 10 2) (field b 12 2) (field b 14 2))
  | 0x21 => some .start
  | 0x22 => some .disarm
  | 0x23 => some (.setSpeed (field b 0 2))
  | 0x24 => some .readRun
  | 0x25 => some (.walk (field b 0 1) (field b 1 3))
  | 0x26 => some .repair
  | 0x27 => some (.readRepairs (field b 0 1) (field b 1 1))
  | 0x30 => some (.setInhibit (field b 0 1) (BitVec.ofNat 16 (field b 1 2)))
  | 0x31 => some (.headOff (field b 0 1))
  | 0x32 => some (.headOn (field b 0 1))
  | 0x33 => some (.readHeads (field b 0 1) (field b 1 1))
  | 0x34 => some .ringStart
  | 0x40 => some (.readEvents (field b 0 1))
  | 0x41 => some (.setClass (field b 0 1) (decide (field b 1 1 % 2 = 1)) (decide (field b 1 1 / 2 % 2 = 1)))
  | 0x42 => some (.setTime (field b 0 2) (field b 2 1))
  | 0x50 => some (.setConstants (constantsFrameOf b))
  | 0x51 => some .readConstants
  | 0x60 => some (.stop port)
  | 0x61 => some (.readStatus port)
  | 0x62 => some (.readPortErrors port)
  | 0x63 => some (.nop port)
  | 0x64 => some (.identify port)
  | 0x70 => some (.fetchMoves (field b 0 1))
  | 0x71 => some (.done (field b 0 2))
  | 0x72 => some (.stopped (field b 0 1) (field b 1 2))
  | _ => none

/-- The command or the frame error of a frame of known command byte and payload length (R166, tests 2 to 5). -/
def decodeBody (port : Port) (command : Byte) (rest : List Byte) (n : Nat) : Instr :=
  match rest.drop n with
  | [] => .frameError port .short
  | check :: fill =>
    if check ≠ crc8 (command :: rest.take n) then .frameError port .check
    else if fill.any fun b => decide (b ≠ 0) then .frameError port .long
    else if permitted port command.toNat = false then .frameError port .notPermitted
    else (commandOf port command.toNat (rest.take n)).getD (.frameError port .unknown)

/-- What the bytes shifted in during a frame are (R163, R166): its command, or its frame error by the first test that
holds; nothing for a frame of no whole byte. -/
def decodeFrame (port : Port) : List Byte → Option Instr
  | [] => none
  | command :: rest =>
    if isCommand command.toNat = false then some (.frameError port .unknown)
    else match payloadLength command.toNat rest with
      | none => some (.frameError port .short)
      | some n => some (decodeBody port command rest n)

/-! ### Writing a frame (R163, R167, R169, R171) -/

/-- A stitch record in a WRITE_RECORDS payload (R169). -/
def wireRecordBytes (r : WireRecord) : List Byte :=
  BitVec.ofNat 8 (r.kindCode * 16 + r.flags) :: 0#8 :: (beSigned 2 r.dx ++ beSigned 2 r.dy)

/-- A colour entry in a SET_COLOURS payload (R167). -/
def colourByte (e : ColourEntry) : Byte :=
  BitVec.ofNat 8 (e.needle + match e.action with | .auto => 0 | .stop => 128)

/-- The constants record in a SET_CONSTANTS payload (R171). -/
def constantsFrameBytes (c : ConstantsFrame) : List Byte :=
  beBytes 1 c.nHeads ++ beBytes 1 c.needles ++ beBytes 2 c.xmin ++ beBytes 2 c.xmax ++ beBytes 2 c.ymin ++
    beBytes 2 c.ymax ++ beBytes 2 c.maxStep ++ c.bands.flatMap (fun b => beBytes 2 b.1 ++ beBytes 2 b.2) ++
    beBytes 2 c.startSpeed ++ beBytes 1 c.ramp ++ beBytes 1 c.motionLimit ++ beBytes 1 c.tensionLimit ++
    beBytes 1 c.backstep ++ beBytes 1 c.faultPolicy ++ beBytes 1 c.trimAtChange ++ beBytes 2 c.changeTime

/-- The command byte and the payload of a frame command (R167); absent for an event and for a frame error. -/
def frameContent : Instr → Option (Byte × List Byte)
  | .openDesign slot len => some (0x10#8, beBytes 1 slot ++ beBytes 3 len)
  | .writeRecords slot index records =>
    some (0x11#8, beBytes 1 slot ++ beBytes 3 index ++ beBytes 1 records.length ++ records.flatMap wireRecordBytes)
  | .readRecords slot index count => some (0x12#8, beBytes 1 slot ++ beBytes 3 index ++ beBytes 1 count)
  | .portStoreAccessDone => none
  | .requestPauseExpiry _ => none
  | .setColours slot first entries =>
    some (0x13#8, beBytes 1 slot ++ beBytes 1 first ++ beBytes 1 entries.length ++ entries.map colourByte)
  | .readColours slot first count => some (0x14#8, beBytes 1 slot ++ beBytes 1 first ++ beBytes 1 count)
  | .readSlot slot => some (0x15#8, beBytes 1 slot)
  | .closeDesign slot => some (0x16#8, beBytes 1 slot)
  | .closeScanReadDone => none
  | .delete slot => some (0x17#8, beBytes 1 slot)
  | .keep slot on => some (0x18#8, beBytes 1 slot ++ flagByte on)
  | .clearFaultRecord => some (0x19#8, [])
  | .arm slot sx sy angle mirror ox oy nowX nowY =>
    some (0x20#8, beBytes 1 slot ++ beBytes 2 sx ++ beBytes 2 sy ++ beBytes 2 angle ++ flagByte mirror ++ beBytes 2 ox ++
      beBytes 2 oy ++ beBytes 2 nowX ++ beBytes 2 nowY)
  | .traceReadDone => none
  | .start => some (0x21#8, [])
  | .stop _ => some (0x60#8, [])
  | .disarm => some (0x22#8, [])
  | .setSpeed value => some (0x23#8, beBytes 2 value)
  | .readRun => some (0x24#8, [])
  | .prepareTurn => none
  | .prepareReadDone => none
  | .fetchMoves max => some (0x70#8, beBytes 1 max)
  | .done seq => some (0x71#8, beBytes 2 seq)
  | .stopped form seq => some (0x72#8, beBytes 1 form ++ beBytes 2 seq)
  | .walk mode n => some (0x25#8, beBytes 1 mode ++ beBytes 3 n)
  | .walkReadDone => none
  | .repair => some (0x26#8, [])
  | .readRepairs first count => some (0x27#8, beBytes 1 first ++ beBytes 1 count)
  | .broadcastSent => none
  | .changeDeadline => none
  | .setInhibit head needles => some (0x30#8, beBytes 1 head ++ beBytes 2 needles.toNat)
  | .ringTransactionStart => none
  | .ringAnswer _ _ => none
  | .ringTimeout => none
  | .ringStart => some (0x34#8, [])
  | .headOff head => some (0x31#8, beBytes 1 head)
  | .headOn head => some (0x32#8, beBytes 1 head)
  | .readHeads first count => some (0x33#8, beBytes 1 first ++ beBytes 1 count)
  | .readEvents n => some (0x40#8, beBytes 1 n)
  | .setClass kind log attend =>
    some (0x41#8, beBytes 1 kind ++ [BitVec.ofNat 8 ((if log then 1 else 0) + if attend then 2 else 0)])
  | .setTime value unit => some (0x42#8, beBytes 2 value ++ beBytes 1 unit)
  | .timeTagTick => none
  | .setConstants record => some (0x50#8, constantsFrameBytes record)
  | .readConstants => some (0x51#8, [])
  | .readStatus _ => some (0x61#8, [])
  | .readPortErrors _ => some (0x62#8, [])
  | .nop _ => some (0x63#8, [])
  | .identify _ => some (0x64#8, [])
  | .frameError _ _ => none
  | .reset => none
  | .frameAcceptReady => none
  | .storeBitChange _ _ => none
  | .chipSelectAssert _ _ => none
  | .resetRelease => none

/-- The frame of a command: command byte, payload, CRC-8 (R163); absent for what is no frame command. -/
def encodeFrame (i : Instr) : Option (List Byte) :=
  (frameContent i).map fun content => content.1 :: (content.2 ++ [crc8 (content.1 :: content.2)])

/-- The port a frame command arrives on: its operand where it is permitted on both, else the one it is permitted on
(R167). -/
def framePort : Instr → Port
  | .stop port => port
  | .readStatus port => port
  | .readPortErrors port => port
  | .nop port => port
  | .identify port => port
  | .frameError port _ => port
  | .chipSelectAssert port _ => port
  | .fetchMoves _ => .m
  | .done _ => .m
  | .stopped _ _ => .m
  | .openDesign _ _ => .p
  | .writeRecords _ _ _ => .p
  | .readRecords _ _ _ => .p
  | .portStoreAccessDone => .p
  | .requestPauseExpiry _ => .p
  | .setColours _ _ _ => .p
  | .readColours _ _ _ => .p
  | .readSlot _ => .p
  | .closeDesign _ => .p
  | .closeScanReadDone => .p
  | .delete _ => .p
  | .keep _ _ => .p
  | .clearFaultRecord => .p
  | .arm _ _ _ _ _ _ _ _ _ => .p
  | .traceReadDone => .p
  | .start => .p
  | .disarm => .p
  | .setSpeed _ => .p
  | .readRun => .p
  | .prepareTurn => .p
  | .prepareReadDone => .p
  | .walk _ _ => .p
  | .walkReadDone => .p
  | .repair => .p
  | .readRepairs _ _ => .p
  | .broadcastSent => .p
  | .changeDeadline => .p
  | .setInhibit _ _ => .p
  | .ringTransactionStart => .p
  | .ringAnswer _ _ => .p
  | .ringTimeout => .p
  | .ringStart => .p
  | .headOff _ => .p
  | .headOn _ => .p
  | .readHeads _ _ => .p
  | .readEvents _ => .p
  | .setClass _ _ _ => .p
  | .setTime _ _ => .p
  | .timeTagTick => .p
  | .setConstants _ => .p
  | .readConstants => .p
  | .reset => .p
  | .frameAcceptReady => .p
  | .storeBitChange _ _ => .p
  | .resetRelease => .p

end Sys2Proof
end

