-- ==== Sys2Proof/Machine/Arith.lean ====
section
/-! DEFINITION. The frame arithmetic of chapter 3: the sine table, the target of a design position, the split of a
move, the speed ceiling and the field check. Exact integer arithmetic. -/

namespace Sys2Proof.Machine

open Sys2Proof

/-- The sine table S(0) to S(90) (R40). -/
def sineTable : List Nat :=
  [0, 286, 572, 857, 1143, 1428, 1713, 1997, 2280, 2563,
   2845, 3126, 3406, 3686, 3964, 4240, 4516, 4790, 5063, 5334,
   5604, 5872, 6138, 6402, 6664, 6924, 7182, 7438, 7692, 7943,
   8192, 8438, 8682, 8923, 9162, 9397, 9630, 9860, 10087, 10311,
   10531, 10749, 10963, 11174, 11381, 11585, 11786, 11982, 12176, 12365,
   12551, 12733, 12911, 13085, 13255, 13421, 13583, 13741, 13894, 14044,
   14189, 14330, 14466, 14598, 14726, 14849, 14968, 15082, 15191, 15296,
   15396, 15491, 15582, 15668, 15749, 15826, 15897, 15964, 16026, 16083,
   16135, 16182, 16225, 16262, 16294, 16322, 16344, 16362, 16374, 16382,
   16384]

/-- S(d) (R40). -/
def sineEntry (d : Nat) : Int := sineTable.getD d 0

/-- The sine of an angle of 0 to 359 degrees, in units of 1/16384 (R41). -/
def sineOf (d : Nat) : Int :=
  if d ≤ 90 then sineEntry d
  else if d ≤ 180 then sineEntry (180 - d)
  else if d ≤ 270 then -sineEntry (d - 180)
  else -sineEntry (360 - d)

/-- The cosine of an angle of 0 to 359 degrees, in units of 1/16384 (R41). -/
def cosineOf (d : Nat) : Int :=
  if d ≤ 90 then sineEntry (90 - d)
  else if d ≤ 180 then -sineEntry (d - 90)
  else if d ≤ 270 then -sineEntry (270 - d)
  else sineEntry (d - 270)

/-- `n` moved to the nearest end of `lo`..`hi` where it lies outside. -/
def clamp (lo hi n : Nat) : Nat := max lo (min hi n)

/-- `n` floored to a multiple of 10. -/
def floorTen (n : Nat) : Nat := n / 10 * 10

/-- A speed clamped to 100..1200 and floored to a multiple of 10 (R49, R51, R53). -/
def speedOf (n : Nat) : Nat := floorTen (clamp 100 1200 n)

/-- The transform of an ARM frame, normalised: scales clamped to 512..2048, the angle modulo 360 (R39), with the
sine and cosine of its angle (R41). -/
def transformOf (sx sy angle : Nat) (mirror : Bool) (ox oy : Nat) : Transform :=
  { sx := clamp 512 2048 sx, sy := clamp 512 2048 sy, angle := angle % 360, mirror := mirror,
    ox := ox, oy := oy, sine := sineOf (angle % 360), cosine := cosineOf (angle % 360) }

/-- The fourth stage of a target: division by 2^22, to the nearest integer, halves toward plus infinity (R43). The
division is the floor of the signed quotient, which `/` is on Int for a positive divisor. -/
def roundTarget (v : Int) : Int := (v + 2097152) / 4194304

/-- The frame target of a design position (R42, R43). -/
def target (t : Transform) (d : Point) : Point :=
  let u := if t.mirror then -d.x else d.x
  let a := u * t.sx
  let b := d.y * t.sy
  ⟨t.ox + roundTarget (a * t.cosine - b * t.sine), t.oy + roundTarget (a * t.sine + b * t.cosine)⟩

/-- Sum of two points. -/
def Point.plus (a b : Point) : Point := ⟨a.x + b.x, a.y + b.y⟩

/-- Difference of two points. -/
def Point.minus (a b : Point) : Point := ⟨a.x - b.x, a.y - b.y⟩

/-- The move length: the larger of the magnitudes (3.1). -/
def moveLength (m : Point) : Nat := max m.x.natAbs m.y.natAbs

/-- The number of pieces of a move (R46): 1 where its length is `maxStep` or less, else ceil(length / maxStep). -/
def pieceCount (maxStep : Nat) (m : Point) : Nat :=
  if moveLength m ≤ maxStep then 1 else (moveLength m + maxStep - 1) / maxStep

/-- One axis of the sub-target of piece `k` of `n`: floor((2·k·m + n) / (2·n)) beyond the start (R46). -/
def subAxis (m : Int) (n k : Nat) : Int := (2 * k * m + n) / (2 * n)

/-- Sub-target `k` of a split; sub-target 0 is the start (R46). -/
def subTarget (start goal : Point) (n k : Nat) : Point :=
  if k = 0 then start else
    ⟨start.x + subAxis (goal.x - start.x) n k, start.y + subAxis (goal.y - start.y) n k⟩

/-- The band speed of a move length: the first entry whose threshold is at or above it, else the last (R49). -/
def bandSpeed : List (Nat × Nat) → Nat → Nat
  | [], _ => 0
  | [b], _ => b.2
  | b :: c :: rest, len => if len ≤ b.1 then b.2 else bandSpeed (c :: rest) len

/-- The band speed of a SLOW stitch: halved, floored to a multiple of 10, at least 100 (R50). -/
def slowSpeed (band : Nat) : Nat := max 100 (band / 20 * 10)

/-- The ceiling of a STEP or TRAVEL token, in the five steps of R53. `slow` is yes for a STEP of a SLOW stitch. -/
def ceilingOf (c : Constants) (runSpeed ramp len : Nat) (slow : Bool) : Nat :=
  let band := bandSpeed c.bands len
  let slowed := if slow then slowSpeed band else band
  let limited := min slowed runSpeed
  let ramped := if ramp = 0 then limited else min limited c.startSpeed
  speedOf ramped

/-- Whether a point lies within the field limits, the edges included (R54). -/
def inField (c : Constants) (p : Point) : Bool :=
  decide ((c.xmin : Int) ≤ p.x ∧ p.x ≤ c.xmax ∧ (c.ymin : Int) ≤ p.y ∧ p.y ≤ c.ymax)

/-- The design position after a record: STITCH and JUMP add their deltas (3.1). -/
def positionAfter (d : Point) (r : StitchRecord) : Point :=
  match r.kind with
  | .stitch => d.plus ⟨r.dx, r.dy⟩
  | .jump => d.plus ⟨r.dx, r.dy⟩
  | _ => d

end Sys2Proof.Machine
end

