-- ==== Sys2Proof/Machine/Ops.lean ====
section
/-! DEFINITION. The shared operations every family uses: posting an event, the lines and the status byte, taking a
frame and placing its reply, the store arbiter, the run state and a stop requested by a block. -/

namespace Sys2Proof.Machine

open Sys2Proof

/-! ### Events (R155 to R157) -/

/-- The low `w` bits of `n`, placed at bit `at`, in an event parameter (R156). -/
def paramField (w at_ n : Nat) : Nat := n % 2 ^ w * 2 ^ at_

/-- An event parameter that is an index, in bits 17–0 (R156). -/
def indexParam (n : Nat) : BitVec 32 := BitVec.ofNat 32 (paramField 18 0 n)

/-- An event parameter that is a physical chunk number, in bits 15–0 (R156). -/
def chunkParam (n : Nat) : BitVec 32 := BitVec.ofNat 32 (paramField 16 0 n)

/-- Appends an entry at the tail of the Event Queue. A queue of 64 entries discards its oldest first and sets the
gap flag of the entry that is now oldest (R157). -/
def appendEvent (q : List EventEntry) (e : EventEntry) : List EventEntry :=
  if q.length < Config.eventEntries then q ++ [e]
  else match q.drop 1 with
    | [] => [e]
    | o :: rest => { o with gap := true } :: rest ++ [e]

/-- Posts an event with a target (R155): an entry is appended when the class of its kind has LOG set. -/
def State.postTarget (s : State) (k : EventKind) (head : Nat) (param : BitVec 32) (target : Option Point) : State :=
  if (s.classOf k.code).log then
    s.withEvents (appendEvent s.events
      { kind := k, head := head, param := param, cursor := s.run.cursor, time := s.timeTag.value, gap := false,
        target := target })
  else s

/-- Posts an event (R155). -/
def State.post (s : State) (k : EventKind) (head : Nat) (param : BitVec 32) : State := s.postTarget k head param none

/-! ### Lines and conditions -/

/-- Low water: the run is RUNNING and fewer than 16 tokens are prepared (R81). -/
def State.lowWater (s : State) : Bool :=
  decide (s.run.state = .running) && decide (s.queue.prepared.length < Config.lowWaterTokens)

/-- STOP_REQUEST: the run is STOPPING (R162). -/
def State.stopRequest (s : State) : Bool := decide (s.run.state = .stopping)

/-- The attention line of port P: an entry whose kind has ATTEND set, or 32 or more entries (R161). -/
def State.attentionP (s : State) : Bool :=
  s.events.any (fun e => (s.classOf e.kind.code).attend) || decide (Config.attentionEntries ≤ s.events.length)

/-- The attention line of port M: STOP_REQUEST or low water (R162). -/
def State.attentionM (s : State) : Bool := s.stopRequest || s.lowWater

/-- Whether a port error record holds a flag (R165). -/
def PortErrors.any (e : PortErrors) : Bool := e.short || e.long || e.check || e.unknown || e.notPermitted

/-- The status byte of a reply on a port (R165). -/
def State.statusByte (s : State) (port : Port) : Byte :=
  let b6 := match port with | .p => s.attentionP | .m => s.stopRequest
  let b5 := match port with | .p => s.run.outstanding | .m => s.lowWater
  let b4 := (s.port port).errors.any
  BitVec.ofNat 8 (s.run.state.code + (if b4 then 16 else 0) + (if b5 then 32 else 0) + (if b6 then 64 else 0))

/-! ### Taking a frame and placing its reply (R163, R164) -/

/-- Places the reply of a frame in the reply buffer of its port, its status byte as the state stands now (R164). -/
def State.reply (s : State) (port : Port) (code : ReplyCode) (payload : List Byte) : State :=
  s.putPort port { s.port port with reply := .held { status := s.statusByte port, code := code, payload := payload } }

/-- Whether a frame that ends now on a port is taken: the part takes frames, and the frame did not begin before it
did so (R173). -/
def State.takesFrame (s : State) (port : Port) : Bool :=
  decide (s.power = .ready) && decide ((s.port port).frame ≠ .ignored)

/-- Marks the reply of a port P record frame as lost when its store access has not ended (R15). -/
def State.loseReply (s : State) (port : Port) : State :=
  match port with
  | .m => s
  | .p => s.withArbiter { s.arbiter with portP := s.arbiter.portP.map fun a => { a with replyLost := true } }

/-- The end of the frame in progress on a port. -/
def State.closeFrame (s : State) (port : Port) : State :=
  s.putPort port { s.port port with frame := .closed }

/-- A frame ends on a port. A frame that is not taken has no effect but that it ends (R173); one that is taken is
carried out by `body`. The frame having begun, a reply still owed to an earlier frame is lost (R15, R164). -/
def State.onFrame (s : State) (port : Port) (body : State → State) : State :=
  if s.takesFrame port then body ((s.loseReply port).closeFrame port) else s.closeFrame port

/-- An event of the part itself acts unless the reset input is held (R173). -/
def State.onEvent (s : State) (body : State → State) : State := if s.power = .held then s else body s

/-! ### The store arbiter (R13, R14, R16) -/

/-- The request of an internal requester. -/
def Arbiter.request (a : Arbiter) : Requester → RequestState
  | .sequencer => a.sequencer
  | .trace => a.trace
  | .walk => a.walk
  | .closeScan => a.closeScan

/-- Writes the request of an internal requester. -/
def Arbiter.putRequest (a : Arbiter) (r : Requester) (v : RequestState) : Arbiter :=
  match r with
  | .sequencer => { a with sequencer := v }
  | .trace => { a with trace := v }
  | .walk => { a with walk := v }
  | .closeScan => { a with closeScan := v }

/-- Grants the path to the waiting request of an internal requester, if it has one. -/
def Arbiter.grantTo (a : Arbiter) (r : Requester) : Option Arbiter :=
  match a.request r with
  | .waiting read => some { a.putRequest r (.served read true) with holder := some (.internal r) }
  | _ => none

/-- When the path is free, grants it to the waiting request of highest precedence: the Sequencer, the trace or the
walk, the close scan, port P (R14). -/
def Arbiter.grant (a : Arbiter) : Arbiter :=
  match a.holder with
  | some _ => a
  | none =>
    match a.grantTo .sequencer with
    | some b => b
    | none => match a.grantTo .trace with
      | some b => b
      | none => match a.grantTo .walk with
        | some b => b
        | none => match a.grantTo .closeScan with
          | some b => b
          | none => if a.portP.isSome then { a with holder := some .portP } else a

/-- An idle internal requester asks for a chunk read; a requester that pauses, or whose earlier access is still
being served, asks when its pause has ended (R14). -/
def State.askRead (s : State) (r : Requester) (read : StoreRead) : State :=
  match s.arbiter.request r with
  | .idle => s.withArbiter (s.arbiter.putRequest r (.waiting read)).grant
  | _ => s

/-- The operation of an internal requester ends: a waiting request is withdrawn, and an access already granted is
carried out to its end for no one (R16). -/
def State.dropRead (s : State) (r : Requester) : State :=
  match s.arbiter.request r with
  | .waiting _ => s.withArbiter (s.arbiter.putRequest r .idle)
  | .served read _ => s.withArbiter (s.arbiter.putRequest r (.served read false))
  | _ => s

/-- The access of an internal requester ends: its pause begins and the path is granted anew (R14). -/
def State.endAccess (s : State) (r : Requester) : State :=
  s.withArbiter { s.arbiter.putRequest r .pausing with holder := none }.grant

/-! ### The access fault record (R23) -/

/-- The set of both sets of kinds. -/
def FaultKinds.union (a b : FaultKinds) : FaultKinds :=
  { absent := a.absent || b.absent, length := a.length || b.length, readOnly := a.readOnly || b.readOnly,
    uncorrectable := a.uncorrectable || b.uncorrectable }

/-- The kinds set of an uncorrectable outcome. -/
def FaultKinds.memory : FaultKinds := { absent := false, length := false, readOnly := false, uncorrectable := true }

/-- Hands a fault to the access fault record: an unfrozen record takes it whole and freezes, a frozen one adds its
kinds (R23). -/
def State.recordFault (s : State) (source : FaultSource) (command : Option FaultCommand) (slot index : Nat)
    (kinds : FaultKinds) : State :=
  if s.faultRecord.frozen then s.withFaultRecord { s.faultRecord with kinds := s.faultRecord.kinds.union kinds }
  else s.withFaultRecord
    { frozen := true, source := some source, command := command, slot := some slot, index := some index, kinds := kinds }

/-- A READY slot becomes DAMAGED; any other keeps its state (R28, R36). -/
def State.damageSlot (s : State) (k : Nat) : State :=
  if (s.slot k).state = .ready then s.putSlot k { s.slot k with state := .damaged } else s

/-! ### The run state and the stops requested by a block (R66) -/

/-- The Sequencer stops preparing because the run has left RUNNING: its chunk buffer is emptied (R80) and its
prepare read is withdrawn or discarded (R16). -/
def State.stopPreparing (s : State) : State := (s.withSeq { s.seq with buffer := none }).dropRead .sequencer

/-- Writes the run state. -/
def State.setRunState (s : State) (v : RunState) : State :=
  let t := s.withRun { s.run with state := v }
  if s.run.state = .running ∧ v ≠ .running then t.stopPreparing else t

/-- Writes the stop reason (R59). -/
def State.setStopReason (s : State) (r : StopReason) : State := s.withRun { s.run with stopReason := r }

/-- Writes the action of the change in progress, if there is one (R65, R66). -/
def State.pauseChange (s : State) : State := s.withChange (s.change.map fun c => { c with action := .pause })

/-- A block of the part requests a stop with a reason (R66). -/
def State.requestStop (s : State) (reason : StopReason) : State :=
  match s.run.state with
  | .running => (s.setRunState .stopping).setStopReason reason
  | .stopping =>
    if reason = .repairDone ∧ s.run.stopReason ≠ .memory then s.setStopReason .repairDone else s
  | .changing => if reason = .fault then s.pauseChange.setStopReason .fault else s
  | _ => s

end Sys2Proof.Machine
end

