-- ==== Sys2Proof/Machine/Heads.lean ====
section
/-! DEFINITION. Shared operations over the ring queue, the heads and the Repair List: offering a ring request, a
change of head state, the entries of the list and their order, the placing of a head in a repair pass, the loss of
a head, and the fault action (chapters 8, 9 and 10). -/

namespace Sys2Proof.Machine

open Sys2Proof

/-! ### The ring request queue (R126) -/

/-- The head id of a broadcast (R119). -/
def broadcastId : Nat := 31

/-- Whether a head is neither ABSENT nor LOST (R105, R126, R127). -/
def State.present (s : State) (h : Nat) : Bool :=
  decide ((s.head h).state ≠ .absent) && decide ((s.head h).state ≠ .lost)

/-- Whether an offered request may be queued (R126): the ring is FULL or SPLIT, and a unicast's head is not ABSENT,
nor LOST but for a recovery POLL. -/
def State.mayQueue (s : State) (r : RingRequest) : Bool :=
  (decide (s.ring.state = .full) || decide (s.ring.state = .split)) &&
    (decide (r.head = broadcastId) || s.present r.head ||
      (decide ((s.head r.head).state = .lost) && decide (r.function = .poll)))

/-- Replaces the data of the queued request of the same function and head, or adds the request at the tail. -/
def coalesce (r : RingRequest) : List RingRequest → List RingRequest
  | [] => [r]
  | q :: rest => if q.function = r.function ∧ q.head = r.head then r :: rest else q :: coalesce r rest

/-- Offers a request to the ring queue (R126). -/
def State.offer (s : State) (r : RingRequest) : State :=
  if s.mayQueue r then s.withRing { s.ring with requests := coalesce r s.ring.requests } else s

/-- PRESSER data (R170). -/
def presserData (up : Bool) : Nat := if up then 1 else 0

/-- The lamp pattern of a head state (R131) as LAMP data (R170). -/
def lampData : HeadState → Nat
  | .active => 1
  | .heldFault => 3
  | .heldNeedle => 2
  | .heldOperator => 2
  | .resting => 0
  | .waiting => 0
  | .lost => 4
  | .absent => 0

/-- Offers the presser and the lamp of a head's new state, the presser first (R131, R134). -/
def State.offerState (s : State) (h : Nat) (st : HeadState) : State :=
  match st with
  | .absent => s
  | .lost => s
  | _ =>
    (s.offer { function := .presser, head := h, data := presserData (decide (st ≠ .active)) }).offer
      { function := .lamp, head := h, data := lampData st }

/-! ### The Repair List (R145) -/

/-- FAULT stands before SKIP (R145). -/
def RepairKind.rank : RepairKind → Nat
  | .fault _ => 0
  | .skip => 1

/-- The order of the list: from-index, then head, then FAULT before SKIP (R145). -/
def RepairEntry.before (a b : RepairEntry) : Bool :=
  decide (a.fromIndex < b.fromIndex) ||
    (decide (a.fromIndex = b.fromIndex) &&
      (decide (a.head < b.head) || (decide (a.head = b.head) && decide (a.kind.rank ≤ b.kind.rank))))

/-- Puts an entry at its place, before those that equal it in all three keys of R145 (log 36). -/
def placeEntry (e : RepairEntry) : List RepairEntry → List RepairEntry
  | [] => [e]
  | a :: rest => if e.before a then e :: a :: rest else a :: placeEntry e rest

/-- The entries in the order of the list. -/
def sortEntries : List RepairEntry → List RepairEntry
  | [] => []
  | e :: rest => placeEntry e (sortEntries rest)

/-- Writes the Repair List, each entry at its place; an empty list clears the outstanding-repairs flag (R71, R145). -/
def State.setRepairs (s : State) (l : List RepairEntry) : State :=
  let t := s.withRepairs (sortEntries l)
  if l = [] then t.withRun { t.run with outstanding := false } else t

/-- Whether an entry is a FAULT entry. -/
def RepairEntry.isFault (e : RepairEntry) : Bool := match e.kind with | .fault _ => true | .skip => false

/-- Whether an entry is a SKIP entry. -/
def RepairEntry.isSkip (e : RepairEntry) : Bool := match e.kind with | .fault _ => false | .skip => true

/-! ### A change of head state (R134) -/

/-- The counts, the last-motion index and, in a REPAIR pass, the join index of a head that becomes ACTIVE (R134,
R149). -/
def State.freshCounts (s : State) (r : HeadRecord) : HeadRecord :=
  { r with noMotion := 0, tension := 0, lastMotion := s.run.cursor,
           joinIndex := if s.run.pass = .repair then some s.run.cursor else r.joinIndex }

/-- A change of a head's state, carried out whole (R134): state and cause, the counts where the new state is ACTIVE,
then the presser and the lamp. -/
def State.setHeadState (s : State) (h : Nat) (st : HeadState) (cause : Option HeadCause) : State :=
  let r := { s.head h with state := st, cause := cause }
  (s.putHead h (if st = .active then s.freshCounts r else r)).offerState h st

/-- In a REPAIR pass, the entries of a head that leaves ACTIVE lose their sewing mark, and start no earlier than the
executed cursor (R151). -/
def State.unmarkEntries (s : State) (h : Nat) : State :=
  s.setRepairs (s.repairs.map fun e =>
    if e.head = h ∧ e.sewing then { e with sewing := false, fromIndex := max e.fromIndex s.run.cursor } else e)

/-- A change of a head's state with what leaving ACTIVE in a REPAIR pass does to its entries (R134, R151). -/
def State.changeHead (s : State) (h : Nat) (st : HeadState) (cause : Option HeadCause) : State :=
  if (s.head h).state = .active ∧ st ≠ .active ∧ s.run.pass = .repair then
    (s.unmarkEntries h).setHeadState h st cause
  else s.setHeadState h st cause

/-- Writes the join index of a head. -/
def State.setJoin (s : State) (h : Nat) (j : Option Nat) : State := s.putHead h { s.head h with joinIndex := j }

/-- Marks as sewing every entry of a head whose from-index is `c` (R149 to R151). -/
def State.markEntries (s : State) (h c : Nat) : State :=
  s.setRepairs (s.repairs.map fun e => if e.head = h ∧ e.fromIndex = c then { e with sewing := true } else e)

/-! ### The placing of heads in a repair pass (R149) -/

/-- The least from-index above `c` among the entries of a head. -/
def leastAbove (l : List RepairEntry) (h c : Nat) : Option Nat :=
  ((l.filter fun e => decide (e.head = h) && decide (c < e.fromIndex)).map (·.fromIndex)).min?

/-- Puts a head into a state it may already be in: no change, no request, where it is (R149). -/
def State.enterHead (s : State) (h : Nat) (st : HeadState) : State :=
  if (s.head h).state = st then s else s.changeHead h st none

/-- Places one head by the rows of R149 below the first, with c the executed cursor. An entry above it and at or
below the prepare cursor makes the head ACTIVE rather than WAITING; at the end of a walk there is none. -/
def State.placeHead (s : State) (h : Nat) : State :=
  let c := s.run.cursor
  let here := s.repairs.any fun e => decide (e.head = h) && decide (e.fromIndex = c)
  let near := s.repairs.any fun e =>
    decide (e.head = h) && decide (c < e.fromIndex) && decide (e.fromIndex ≤ s.seq.cursor)
  if here || near then
    if s.barred h then (s.enterHead h .heldNeedle).setJoin h none
    else ((s.enterHead h .active).setJoin h (some c)).markEntries h c
  else
    match leastAbove s.repairs h c with
    | some i => (s.enterHead h .waiting).setJoin h (some i)
    | none => (s.enterHead h .resting).setJoin h none

/-- The entries of a head with a deferred block start at the executed cursor (R152). -/
def State.undefer (s : State) (h : Nat) : State :=
  s.setRepairs (s.repairs.map fun e =>
    if e.head = h ∧ e.deferred ≠ none then { e with deferred := none, fromIndex := s.run.cursor } else e)

/-- A head is returned to work: ACTIVE in a MAIN pass, placed by R149 in a REPAIR pass (R141, R143, R149, R152). -/
def State.returnHead (s : State) (h : Nat) : State :=
  match s.run.pass with
  | .main => s.changeHead h .active none
  | .repair => (s.undefer h).placeHead h

/-- The placing of every head at the end of the walk of REPAIR (R149). -/
def State.placeAll (s : State) : State :=
  headNumbers.foldl (fun t h =>
    match (t.head h).state with
    | .absent => t.setJoin h none
    | .lost => t.setJoin h none
    | .heldOperator => t.setJoin h none
    | _ => t.placeHead h) s

/-! ### SKIP entries (R111, R146) -/

/-- Changes the first entry for which `p` holds. -/
def changeFirst (p : RepairEntry → Bool) (f : RepairEntry → RepairEntry) : List RepairEntry → List RepairEntry
  | [] => []
  | e :: rest => if p e then f e :: rest else e :: changeFirst p f rest

/-- Hands the Repair List a SKIP entry of a head from the executed cursor to the end of the current colour block
(R111): merged into a SKIP entry of the head that ends just before it or is open on the same block, else placed
where fewer than 24 stand. Of two entries that qualify for the merge the first of the list is changed (log 34). The answer
says whether it was taken (R146). -/
def State.skipEntry (s : State) (h : Nat) : State × Bool :=
  let c := s.run.cursor
  let b := s.run.colourBlock
  let ends (e : RepairEntry) : Bool :=
    decide (e.head = h) && e.isSkip && (match e.toIndex with | some t => decide (t + 1 = c) | none => false)
  let same (e : RepairEntry) : Bool :=
    decide (e.head = h) && e.isSkip && decide (e.toIndex = none) && decide (e.toBlock = some b)
  if s.repairs.any ends then
    (s.setRepairs (changeFirst ends (fun e => { e with toBlock := some b, toIndex := none }) s.repairs), true)
  else if s.repairs.any same then
    (s.setRepairs (changeFirst same (fun e => { e with fromIndex := min e.fromIndex c }) s.repairs), true)
  else if (s.repairs.filter (·.isSkip)).length < Config.skipShare then
    (s.setRepairs ({ head := h, kind := .skip, fromIndex := c, toBlock := some b, toIndex := none, deferred := none,
                     sewing := false } :: s.repairs), true)
  else (s, false)

/-- A SKIP entry outside a change: one that finds the SKIP share full posts REPAIR_LIST_FULL with its head (R116). -/
def State.skipOrPost (s : State) (h : Nat) : State :=
  match s.skipEntry h with
  | (t, true) => t
  | (t, false) => t.post .repairListFull h (BitVec.ofNat 32 (paramField 8 0 t.run.colourBlock))

/-! ### FAULT entries (R146, R152) -/

/-- Hands the Repair List a fault of a head with from-index `f`: in a MAIN pass a new FAULT entry (R146), in a REPAIR
pass a change of the entries being sewn (R152). -/
def State.faultEntry (s : State) (h : Nat) (cause : ThreadFault) (f : Nat) : State :=
  let fresh : RepairEntry :=
    { head := h, kind := .fault cause, fromIndex := f, toBlock := none, toIndex := none, deferred := none, sewing := false }
  match s.run.pass with
  | .main => s.setRepairs (fresh :: s.repairs)
  | .repair =>
    let moved := s.repairs.map fun e =>
      if e.head ≠ h then e
      else if e.isFault then
        if e.sewing then { e with fromIndex := max e.fromIndex f, kind := .fault cause, sewing := false }
        else { e with fromIndex := f }
      else if e.sewing then { e with fromIndex := max e.fromIndex f, sewing := false }
      else e
    if s.repairs.any (fun e => decide (e.head = h) && e.isFault) then s.setRepairs moved
    else s.setRepairs (fresh :: moved)

/-! ### The loss of a head (R108, R125, R126, R135) -/

/-- The HEAD_LOST parameter of a cause (R156). -/
def lossParam (c : LossCause) : BitVec 32 := BitVec.ofNat 32 c.code

/-- Takes a head out of the ring queue, marks the transaction in flight to it, and takes it out of the confirm set
(R109, R122, R126). -/
def State.forgetHead (s : State) (h : Nat) : State :=
  let ring := { s.ring with
    requests := s.ring.requests.filter fun r => decide (r.head ≠ h)
    flight := s.ring.flight.map fun t => if t.request.head = h then { t with headLost := true } else t }
  (s.withRing ring).withChange (s.change.map fun c => { c with confirm := c.confirm.filter fun k => decide (k ≠ h) })

/-- A head becomes LOST with a cause, and HEAD_LOST is posted. -/
def State.loseHead (s : State) (h : Nat) (c : LossCause) : State :=
  ((s.changeHead h .lost (some (.loss c))).forgetHead h).post .headLost h (lossParam c)

/-! ### The fault action and the fault policy (R138, R139) -/

/-- The from-index of a fault (R138, step 1): B records back from the last motion or from the executed cursor, raised
to the floor, lowered to the executed cursor; 0 where no run position exists (R146). An absent join index sets no
floor (log 9). -/
def State.faultFrom (s : State) (h : Nat) (cause : ThreadFault) : Nat :=
  let r := s.head h
  let base := match cause with | .breakFault => r.lastMotion | .tension => s.run.cursor
  let floor := match s.run.pass with | .main => 0 | .repair => r.joinIndex.getD 0
  if s.run.state = .idle ∨ s.run.state = .arming then 0
  else min (max (base - s.constants.backstep) floor) s.run.cursor

/-- The event of a fault (R138, step 4). -/
def faultEvent : ThreadFault → EventKind
  | .breakFault => .threadBreak
  | .tension => .tensionFault

/-- The fault action of a head (R138): HELD_FAULT with its requests, the FAULT entry, the event. -/
def State.faultAction (s : State) (h : Nat) (cause : ThreadFault) : State :=
  let f := s.faultFrom h cause
  (((s.setHeadState h .heldFault (some (.thread cause))).faultEntry h cause f).post (faultEvent cause) h (indexParam f))

/-- The fault policy, applied once after faults have been made (R139). -/
def State.applyPolicy (s : State) : State :=
  if s.constants.faultPolicy = .stopAll ∨ s.anyHead .active = false then s.requestStop .fault else s

/-- What the loss of an ACTIVE head asks of a RUNNING run (R139). -/
def State.stopForLoss (s : State) (wasActive : Bool) : State :=
  if wasActive ∧ s.run.state = .running then s.requestStop .headLost else s

end Sys2Proof.Machine
end

