-- ==== Sys2Proof/Machine/Changes.lean ====
section
/-! DEFINITION. Shared operations of the Colour Changer: the start of a change, a confirmation, the inhibit check, the
resume decision (chapter 7). -/

namespace Sys2Proof.Machine

open Sys2Proof

/-- The action of a change that enters a colour block (R105). -/
def entryAction : ColourAction → ChangeAction
  | .auto => .auto
  | .stop => .stop

/-! ### Completing a change (R110 to R112) -/

/-- What the inhibit check of a REPAIR pass does to the entries being sewn of a head it makes HELD_NEEDLE on entering
block `b` (R152): a SKIP up to block `b` goes, a FAULT entry and a SKIP beyond `b` take `b` as deferred block. A SKIP whose to-block
lies below `b` loses its mark alone (log 35). -/
def State.deferEntries (s : State) (h b : Nat) : State :=
  let gone (e : RepairEntry) : Bool :=
    decide (e.head = h) && e.sewing && e.isSkip && decide (e.toBlock = some b)
  s.setRepairs ((s.repairs.filter fun e => !gone e).map fun e =>
    if e.head = h ∧ e.sewing then
      { e with sewing := false, deferred := if e.isFault || decide (b < e.toBlock.getD 0) then some b else e.deferred }
    else e)

/-- An ACTIVE head is lifted out because the machine needle is inhibited on it (R110, R152). -/
def State.holdAtChange (s : State) (h : Nat) : State :=
  match s.run.pass with
  | .main => s.setHeadState h .heldNeedle none
  | .repair => (s.setHeadState h .heldNeedle none).deferEntries h s.run.colourBlock

/-- The inhibit check of one head (R110): the state after it, and whether a SKIP entry found no room (R111). -/
def State.checkHead (s : State) (h : Nat) : State × Bool :=
  match (s.head h).state, s.barred h with
  | .active, true => match (s.holdAtChange h).skipEntry h with | (t, taken) => (t, !taken)
  | .heldNeedle, true => match s.skipEntry h with | (t, taken) => (t, !taken)
  | .heldNeedle, false => (s.returnHead h, false)
  | _, _ => (s, false)

/-- The inhibit check of the heads given, in order, and the first head left without an entry (R110, R111). -/
def State.inhibitCheck (s : State) : List Nat → State × Option Nat
  | [] => (s, none)
  | h :: rest =>
    match s.checkHead h with
    | (t, full) => match t.inhibitCheck rest with
      | (u, later) => (u, if full then some h else later)

/-- The needle of the machine as an event parameter (R156). -/
def State.needleParam (s : State) : BitVec 32 := BitVec.ofNat 32 (paramField 4 0 s.run.needle)

/-- RUN_STOPPED with the stop reason (R156). -/
def State.postStopped (s : State) : State :=
  s.post .runStopped 0 (BitVec.ofNat 32 (paramField 4 0 s.run.stopReason.code))

/-- The resume decision (R112) for an action, with the first head left without an entry, if any. -/
def State.resumeDecision (s : State) (action : ChangeAction) (full : Option Nat) : State :=
  if s.anyHead .active = false ∧ s.anyHead .waiting = false then
    ((s.setRunState .paused).setStopReason .noHeads).post .noHeads 0 s.needleParam
  else match full with
    | some h =>
      ((s.setRunState .paused).setStopReason .repairListFull).post .repairListFull h
        (BitVec.ofNat 32 (paramField 8 0 s.run.colourBlock))
    | none => match action with
      | .auto => (s.setRunState .running).withSeq { s.seq with ramp := s.constants.ramp }
      | .resume => (s.setRunState .running).withSeq { s.seq with ramp := s.constants.ramp }
      | .stop =>
        ((s.setRunState .paused).setStopReason .colourStop).post .colourStop 0
          (BitVec.ofNat 32 (paramField 8 8 s.run.colourBlock + paramField 4 0 s.run.needle))
      | .pause => (s.setRunState .paused).postStopped

/-- The completion of a change whose confirm set is empty (R110 to R112): the machine needle, the inhibit check with
its SKIP entries, the resume decision, CHANGE_DONE, and the change record gone. -/
def State.completeChange (s : State) (c : ChangeRecord) : State :=
  let t := (s.withRun { s.run with needle := c.target }).withChange
    (some { c with selectionSent := false, confirm := [], deadline := none })
  match t.inhibitCheck headNumbers with
  | (u, full) =>
    let v := u.withChange (u.change.map fun d => { d with listFull := full.isSome })
    let w := v.resumeDecision c.action full
    (w.post .changeDone 0 w.needleParam).withChange none

/-- Completes the change in progress if its confirm set is empty (R107, R109). -/
def State.settleChange (s : State) : State :=
  match s.change with
  | some c => if c.confirm = [] then s.completeChange c else s
  | none => s

/-! ### Starting a change (R105, R106) -/

/-- A change starts to a needle with an action (R105): the change record with its confirm set, the state CHANGING, the
SELECT_NEEDLE broadcast queued (R106); a transaction in flight is none of this change's. A change that finds its
confirm set empty ends at once. -/
def State.startChange (s : State) (needle : Nat) (action : ChangeAction) : State :=
  let record : ChangeRecord :=
    { target := needle, action := action, selectionSent := false,
      confirm := headNumbers.filter fun h => s.present h, deadline := none, listFull := false }
  let t := (s.withChange (some record)).setRunState .changing
  let u := t.withRing { t.ring with
    flight := t.ring.flight.map fun f => { f with afterSelection := false, ofChange := false } }
  (u.offer { function := .selectNeedle, head := broadcastId, data := needle }).settleChange

/-! ### Confirmations (R107) -/

/-- A good answer is handed to the Colour Changer (R107): it takes its head out of the confirm set when its
transaction began after the selection was sent and it reports the target needle settled. -/
def State.confirmNeedle (s : State) (t : Transaction) (w : RingWord) : State :=
  match s.change with
  | none => s
  | some c =>
    if c.selectionSent ∧ t.afterSelection ∧ t.request.head ∈ c.confirm ∧ answerNeedle w = c.target ∧ answerSettled w then
      (s.withChange (some { c with confirm := c.confirm.filter fun h => decide (h ≠ t.request.head) })).settleChange
    else s

end Sys2Proof.Machine
end

