-- ==== Sys2Proof/Machine/Store.lean ====
section
/-! DEFINITION. The Design Store: chunk states, the checked read, the write request in two phases, bit changes in the
memory, and the free block pool (chapter 1). -/

namespace Sys2Proof.Machine

open Sys2Proof

/-- The END record with no flags and zero deltas, which blank and padding positions read as (R1, R2). -/
def endOfDesign : StitchRecord := { kind := .endRecord, slow := false, dx := 0, dy := 0 }

/-! ### Positions and chunk states (R1, R2) -/

/-- What a position holds when none of its bits has changed. -/
def Cell.content : Cell → StitchRecord
  | .blank => endOfDesign
  | .padding => endOfDesign
  | .written r => r

/-- Whether a position is in the written set. -/
def Cell.inSet : Cell → Bool
  | .blank => false
  | _ => true

/-- Whether a position has been written by a write request. -/
def Cell.byRequest : Cell → Bool
  | .written _ => true
  | _ => false

/-- Position `p` (0 to 3) of a chunk. -/
def Chunk.cell (c : Chunk) : Nat → Cell
  | 0 => c.c0
  | 1 => c.c1
  | 2 => c.c2
  | _ => c.c3

/-- Writes position `p` (0 to 3) of a chunk. -/
def Chunk.putCell (c : Chunk) (p : Nat) (v : Cell) : Chunk :=
  match p with
  | 0 => { c with c0 := v }
  | 1 => { c with c1 := v }
  | 2 => { c with c2 := v }
  | _ => { c with c3 := v }

/-- The chunk states (R2). -/
inductive ChunkState where
  | blank
  | partly
  | complete
  deriving DecidableEq, Repr, Inhabited

/-- The state of a chunk, set by its written set (R2): BLANK when no position has been written by a write request,
COMPLETE when all four are in the written set, else PARTIAL. -/
def Chunk.state (c : Chunk) : ChunkState :=
  if !(c.c0.byRequest || c.c1.byRequest || c.c2.byRequest || c.c3.byRequest) then .blank
  else if c.c0.inSet && c.c1.inSet && c.c2.inSet && c.c3.inSet then .complete
  else .partly

/-- The contents last written to the four positions. -/
def Chunk.contents (c : Chunk) : List StitchRecord := [c.c0.content, c.c1.content, c.c2.content, c.c3.content]

/-- The changed bits of position `p`. -/
def Chunk.changedAt (c : Chunk) (p : Nat) : List Nat := c.changed.filter fun b => b / Config.positionBits = p

/-! ### The checked read (R3, R6, R7) -/

/-- The outcome of comparing a COMPLETE chunk with its check code (R3): clean with no bit changed, corrected with
one, uncorrectable with two; with three or more it is a free value (log 2). -/
def Chunk.outcome (c : Chunk) : Config.CheckOutcome :=
  match c.changed with
  | [] => .clean
  | [_] => .corrected
  | [_, _] => .uncorrectable
  | more => Config.manyBitOutcome c.contents more

/-- The record a good read of a COMPLETE chunk delivers for position `p`: the content written, also where three or more bits
have changed, the outcome is clean and none of them is of this position (R3); else, with three or more, a free value (log 2).
Padding stays an END record (R2). -/
def Chunk.checkedRecord (c : Chunk) (p : Nat) : StitchRecord :=
  match c.cell p with
  | .written r =>
    if c.changed.length ≤ 2 ∨ (c.outcome = .clean ∧ c.changedAt p = []) then r
    else Config.manyBitRecord c.contents c.changed p
  | _ => endOfDesign

/-- The record a read of a BLANK or PARTIAL chunk delivers for position `p` (R7): unchecked, END where blank; where
bits of a written position have changed, a free value (log 3). -/
def Chunk.uncheckedRecordAt (c : Chunk) (p : Nat) : StitchRecord :=
  match c.cell p with
  | .blank => endOfDesign
  | cell => if c.changedAt p = [] then cell.content else Config.uncheckedRecord cell.content (c.changedAt p)

/-- The chunk as the write-back of a corrected read leaves it (R6): the corrected content, a fresh check code, the
written set unchanged. -/
def Chunk.corrected (c : Chunk) : Chunk :=
  let fix (p : Nat) : Cell := match c.cell p with | .written _ => .written (c.checkedRecord p) | other => other
  { c0 := fix 0, c1 := fix 1, c2 := fix 2, c3 := fix 3, changed := [] }

/-- What a chunk read hands back (R6, R7). -/
inductive ReadResult where
  | records (rs : List StitchRecord) (corrected : Bool)
  | uncorrectable
  deriving DecidableEq, Repr, Inhabited

/-- Reads chunk `n` (R6, R7): the state after it (with the write-back and MEMORY_CORRECTED of a corrected read) and
what it delivers. -/
def State.readChunk (s : State) (n : Nat) : State × ReadResult :=
  let c := s.chunk n
  match c.state with
  | .complete =>
    let rs := [c.checkedRecord 0, c.checkedRecord 1, c.checkedRecord 2, c.checkedRecord 3]
    match c.outcome with
    | .clean => (s, .records rs false)
    | .corrected => ((s.putChunk n c.corrected).post .memoryCorrected 0 (chunkParam n), .records rs true)
    | .uncorrectable => (s, .uncorrectable)
  | _ =>
    (s, .records [c.uncheckedRecordAt 0, c.uncheckedRecordAt 1, c.uncheckedRecordAt 2, c.uncheckedRecordAt 3] false)

/-! ### Writing a chunk (R5) -/

/-- Whether writing the positions `ps` covers every position of the chunk that is not padding (R5). -/
def Chunk.coveredBy (c : Chunk) (ps : List Nat) : Bool :=
  [0, 1, 2, 3].all fun p => ps.contains p || decide (c.cell p = .padding)

/-- Puts records into positions of a chunk. -/
def Chunk.putRecords (c : Chunk) : List (Nat × StitchRecord) → Chunk
  | [] => c
  | (p, r) :: rest => (c.putCell p (.written r)).putRecords rest

/-- Fixes in each written position the content that the memory holds now, when the check code is computed over it. -/
def Chunk.sealUnchecked (c : Chunk) : Chunk :=
  let fix (p : Nat) : Cell := match c.cell p with | .written _ => .written (c.uncheckedRecordAt p) | other => other
  { c0 := fix 0, c1 := fix 1, c2 := fix 2, c3 := fix 3, changed := [] }

/-- The chunk after the second phase has written `rs` into it (R5). A COMPLETE chunk is merged with the content the
first phase read and checked, or is covered in full; its check code is computed anew. Another chunk takes the
records, and keeps no check code until its written set holds all four positions. -/
def Chunk.write (c : Chunk) (rs : List (Nat × StitchRecord)) : Chunk :=
  match c.state with
  | .complete => c.corrected.putRecords rs
  | _ =>
    let positions : List Nat := rs.map Prod.fst
    let kept := c.changed.filter fun b => !(positions.contains (b / Config.positionBits))
    let d := ({ c with changed := kept } : Chunk).putRecords rs
    if d.state = .complete then d.sealUnchecked else d

/-! ### The requests of port P (R4, R8, R20) -/

/-- The spans of `count` record indices from `index` on, in ascending order (R20). -/
def spansOf (map : List Nat) (index count : Nat) : List Span :=
  if count = 0 then [] else
    (List.range ((index + count - 1) / 4 + 1 - index / 4)).map fun k =>
      let first := (index / 4 + k) * 4
      { chunk := chunkOf map first, first := first,
        positions := [0, 1, 2, 3].filter fun p => decide (index ≤ first + p ∧ first + p < index + count) }

/-- The records of a write request that fall into a span, by position. -/
def Span.cells (sp : Span) (index : Nat) (rs : List StitchRecord) : List (Nat × StitchRecord) :=
  sp.positions.map fun p => (p, rs.getD (sp.first + p - index) endOfDesign)

/-- How a port P request ends (R4, R8): with the first record index of the chunk found uncorrectable, or well, with
the records delivered and the corrected flag. -/
inductive RequestResult where
  | uncorrectable (first : Nat)
  | ended (records : List StitchRecord) (corrected : Bool)
  deriving DecidableEq, Repr, Inhabited

/-- Reads spans one after another, stopping at the first uncorrectable chunk (R8). -/
def State.readSpans (s : State) : List Span → State × RequestResult
  | [] => (s, .ended [] false)
  | sp :: rest =>
    match s.readChunk sp.chunk with
    | (t, .uncorrectable) => (t, .uncorrectable sp.first)
    | (t, .records rs corrected) =>
      match t.readSpans rest with
      | (u, .uncorrectable first) => (u, .uncorrectable first)
      | (u, .ended more again) =>
        (u, .ended (sp.positions.map (fun p => rs.getD p endOfDesign) ++ more) (corrected || again))

/-- The spans whose chunk the first phase of a write request reads: COMPLETE and covered only in part (R4). -/
def State.firstPhaseSpans (s : State) (spans : List Span) : List Span :=
  spans.filter fun sp =>
    decide ((s.chunk sp.chunk).state = .complete) && !((s.chunk sp.chunk).coveredBy sp.positions)

/-- The second phase of a write request: every span is written in ascending order (R4). -/
def State.writeSpans (s : State) (index : Nat) (rs : List StitchRecord) : List Span → State
  | [] => s
  | sp :: rest =>
    (s.putChunk sp.chunk ((s.chunk sp.chunk).write (sp.cells index rs))).writeSpans index rs rest

/-- A write request in its two phases (R4): every position is written, or none. -/
def State.writeRequest (s : State) (index : Nat) (rs : List StitchRecord) (spans : List Span) : State × RequestResult :=
  match s.readSpans (s.firstPhaseSpans spans) with
  | (t, .uncorrectable first) => (t, .uncorrectable first)
  | (t, .ended _ corrected) => (t.writeSpans index rs spans, .ended [] corrected)

/-! ### Bits that change in the memory (R3) -/

/-- Puts a bit number into a rising list, or takes it out where it is in it: a bit that changes twice stands as it
stood. -/
def toggleBit (b : Nat) : List Nat → List Nat
  | [] => [b]
  | a :: rest => if b < a then b :: a :: rest else if a = b then rest else a :: toggleBit b rest

/-- Whether a bit of a chunk bears on any later read: a content bit of a position in the written set, or a bit of
the check code of a COMPLETE chunk (R2, R7). -/
def Chunk.bearing (c : Chunk) (b : Nat) : Bool :=
  if b < Config.contentBits then (c.cell (b / Config.positionBits)).inSet
  else decide (b < Config.chunkBits) && decide (c.state = .complete)

/-- The chunk after bits of its content or check code have changed (R3). -/
def Chunk.changeBits (c : Chunk) (bits : List Nat) : Chunk :=
  { c with changed := (bits.filter c.bearing).foldl (fun l b => toggleBit b l) c.changed }

/-! ### The free block pool (R9, R10) -/

/-- The chunk that holds record index `len`−1 with every position at an index of `len` or above as padding (R2). -/
def paddedChunk (len : Nat) : Chunk :=
  let pad (p : Nat) : Cell := if (len - 1) % 4 < p then .padding else .blank
  { c0 := pad 0, c1 := pad 1, c2 := pad 2, c3 := pad 3, changed := [] }

/-- The blocks a design of length `len` needs: ceil(len / 512) (R9). -/
def blocksFor (len : Nat) : Nat := (len + Config.blockPositions - 1) / Config.blockPositions

/-- Takes the lowest-numbered free blocks for a design of length `len`: their chunks become BLANK and take their
padding, and they leave the pool (R2, R9). -/
def State.allocate (s : State) (len : Nat) : State × List Nat :=
  let blocks := s.pool.take (blocksFor len)
  let t := s.withStore (s.store.filter fun e => !(blocks.contains (e.1 / Config.blockChunks)))
  ((t.putChunk (chunkOf blocks (len - 1)) (paddedChunk len)).withPool (s.pool.drop (blocksFor len)), blocks)

/-- Puts a block number into the pool at its place in rising order. -/
def poolInsert (b : Nat) : List Nat → List Nat
  | [] => [b]
  | a :: rest => if b ≤ a then b :: a :: rest else a :: poolInsert b rest

/-- Returns blocks to the pool (R10). -/
def State.release (s : State) (blocks : List Nat) : State := s.withPool (blocks.foldl (fun p b => poolInsert b p) s.pool)

end Sys2Proof.Machine
end

