-- ==== Sys2Proof/Machine/Halts.lean ====
section
/-! DEFINITION. Shared operations of the run's end of the motion exchange: the completion of tokens and what the Repair
List does at it, the handover to the Head Supervisor, the rollback, the resolution of a halt, the run state after a
STOPPED, and the end of a repair pass (chapters 4, 5, 9 and 10). -/

namespace Sys2Proof.Machine

open Sys2Proof

/-! ### The end of a repair pass before END (R153) -/

/-- REPAIR_DONE with the number of entries left (R156). -/
def State.postRepairDone (s : State) (left : Nat) : State :=
  s.post .repairDone 0 (BitVec.ofNat 32 (paramField 6 0 left))

/-- The run becomes FINISHED before END, and REPAIR_DONE is posted with parameter 0 (R153). -/
def State.finishRepair (s : State) : State := (s.setRunState .finished).postRepairDone 0

/-- What the Repair List does when it has become empty in a REPAIR pass, by the run state (R153): a stop requested in
RUNNING or STOPPING, FINISHED at once in PAUSED, a mark for the end of the walk in WALKING. -/
def State.passEmptied (s : State) : State :=
  match s.run.state with
  | .running => s.requestStop .repairDone
  | .stopping => s.requestStop .repairDone
  | .paused => s.finishRepair
  | .walking => s.withWalk (s.walk.map fun w => { w with listEmptied := true })
  | _ => s

/-- R153 before END: applies where the pass is REPAIR, the list is empty and the executed cursor is below L; in WALKING
that is the cursor held before the walk began (R102). -/
def State.checkPassEmptied (s : State) : State :=
  if s.run.pass = .repair ∧ s.repairs = [] ∧ s.run.cursor < s.designLength then s.passEmptied else s

/-! ### The Repair List at a completion (R147, R151, R152) -/

/-- R147: the to-index of the open SKIP entries whose block a COLOUR halt has closed, or that are on the last block
when the cursor has moved past the END record. -/
def State.fixToIndex (s : State) (t : Token) : State :=
  let closed : Bool := decide (t.reason = some .colour)
  let entries := s.repairs.map fun e =>
    if e.isSkip ∧ e.toIndex = none ∧ closed ∧ e.toBlock = some (s.run.colourBlock - 1) then { e with toIndex := some t.index }
    else if e.isSkip ∧ e.toIndex = none ∧ s.run.cursor = s.designLength ∧ e.toBlock = some s.armedRecord.colourCount then
      { e with toIndex := some (s.designLength - 1) }
    else e
  s.setRepairs entries

/-- R152: entries with a deferred block start after that block once it is closed; those deferred to the last block go
when the cursor has moved past the END record. -/
def State.moveDeferred (s : State) (t : Token) : State :=
  let closed : Bool := decide (t.reason = some .colour)
  let gone (e : RepairEntry) : Bool :=
    decide (s.run.cursor = s.designLength) && decide (e.deferred = some s.armedRecord.colourCount)
  let entries := (s.repairs.filter fun e => !gone e).map fun e =>
    if closed ∧ e.deferred = some (s.run.colourBlock - 1) then { e with deferred := none, fromIndex := s.run.cursor } else e
  s.setRepairs entries

/-- Whether the executed cursor has passed the stretch of a SKIP entry (R151). -/
def State.passed (s : State) (e : RepairEntry) : Bool :=
  match e.toIndex with
  | some t => decide (t < s.run.cursor)
  | none => decide (e.toBlock.getD 0 < s.run.colourBlock)

/-- Whether R151 removes an entry at its second step. -/
def State.isSewn (s : State) (e : RepairEntry) : Bool := e.isSkip && e.sewing && s.passed e

/-- R151 in a REPAIR pass: entries that begin here are marked, sewn SKIP entries go, heads left with none being sewn
are placed again, in ascending head number (log 40), and an empty list ends the pass. -/
def State.passUpdate (s : State) : State :=
  let marked := s.setRepairs (s.repairs.map fun e =>
    if (s.head e.head).state = .active ∧ e.fromIndex = s.run.cursor then { e with sewing := true } else e)
  let losers := headNumbers.filter fun h => marked.repairs.any fun e => decide (e.head = h) && marked.isSewn e
  let removed := marked.setRepairs (marked.repairs.filter fun e => !marked.isSewn e)
  let placed := losers.foldl (fun t h =>
    if t.repairs.any fun e => decide (e.head = h) && e.sewing then t else t.returnHead h) removed
  placed.checkPassEmptied

/-- The Repair List is told the executed cursor (R147, R151, R152). -/
def State.repairCursorMoved (s : State) (t : Token) : State :=
  let u := (s.fixToIndex t).moveDeferred t
  match u.run.pass with
  | .main => u
  | .repair => u.passUpdate

/-! ### Completions (R85, R86, R136) -/

/-- The completion of one token (R85), which has already left the issued region. Over changed content the current colour
block rises past 127 (log 33). -/
def State.completeToken (s : State) (t : Token) : State :=
  let moved := s.withRun { s.run with frame := t.frameAfter }
  let counted :=
    if t.lastOfRecord then
      (moved.withRun { moved.run with
        cursor := t.index + 1, design := t.designAfter,
        colourBlock := if t.reason = some .colour then moved.run.colourBlock + 1 else moved.run.colourBlock }).repairCursorMoved t
    else moved
  counted.withQueue { counted.queue with lastDone := some t.seq }

/-- Completes the oldest `n` issued tokens, oldest first. -/
def State.completeTokens (s : State) : Nat → State
  | 0 => s
  | n + 1 =>
    match s.queue.issued with
    | [] => s
    | t :: rest => ((s.withQueue { s.queue with issued := rest }).completeToken t).completeTokens n

/-- The position of a sequence number in the issued region, counted from 1: how many tokens a report that names it
completes (R84). -/
def issuedCount (seq : Nat) : List Token → Option Nat
  | [] => none
  | t :: rest => if t.seq = seq then some 1 else (issuedCount seq rest).map (· + 1)

/-- Adds completed STEPs to the no-motion count of every ACTIVE head, held at K (R136). -/
def State.addStitches (s : State) (steps : Nat) : State :=
  headNumbers.foldl (fun t h =>
    if (t.head h).state = .active then
      t.putHead h { t.head h with noMotion := min ((t.head h).noMotion + steps) t.constants.motionLimit }
    else t) s

/-- The ACTIVE heads whose no-motion count has reached K (R136). -/
def State.brokenHeads (s : State) : List Nat :=
  headNumbers.filter fun h =>
    decide ((s.head h).state = .active) && decide ((s.head h).noMotion = s.constants.motionLimit)

/-- The STEP handover of a DONE or STOPPED frame (R86, R136, R139). -/
def State.handover (s : State) (steps : Nat) : State :=
  let t := s.addStitches steps
  let broken := t.brokenHeads
  if broken = [] then t
  else (broken.foldl (fun u h => u.faultAction h .breakFault) t).applyPolicy

/-! ### Rollback (R89) -/

/-- Discards every token left in the queue and brings the Sequencer back to the executed point (R88, R89). -/
def State.rollback (s : State) : State :=
  let discarded := s.queue.issued ++ s.queue.prepared
  let seq := s.seq
  ((s.withQueue { s.queue with issued := [], prepared := [] }).withSeq
    { seq with
      cursor := s.run.cursor, design := s.run.design, frame := s.run.frame, split := none, halt := none, buffer := none,
      haltFlag := seq.haltFlag && !(discarded.any fun t => decide (t.kind = .halt)),
      approach := seq.approach || discarded.any fun t => decide (t.role = .approach) }).dropRead .sequencer

/-! ### Halts (R70 to R72, R150, R153) -/

/-- The run enters FAULT (R72): the armed slot becomes DAMAGED if READY, and MEMORY_FAULT is posted. -/
def State.enterFault (s : State) : State :=
  let t := s.setRunState .fault
  let u := match t.run.armedSlot with | some k => t.damageSlot k | none => t
  u.post .memoryFault 0 (chunkParam (u.run.faultChunk.getD 0))

/-- The run reaches FINISHED at an END halt (R70, R71, R153). -/
def State.finishAtEnd (s : State) (running : Bool) : State :=
  let trimmed := match s.run.pass with
    | .main => s
    | .repair => s.setRepairs (s.repairs.filter fun e => !(e.isFault && e.sewing))
  let t := trimmed.setRunState .finished
  let u := if running then t.setStopReason .endOfDesign else t
  let v := u.post .designEnd 0 (BitVec.ofNat 32 u.run.pass.code)
  let w := v.withRun { v.run with outstanding := decide (v.repairs ≠ []) }
  match w.run.pass with
  | .main => w
  | .repair => w.postRepairDone w.repairs.length

/-- One head at a JOIN halt (R150): ACTIVE with its entries marked, or HELD_NEEDLE with a SKIP entry. -/
def State.joinHead (s : State) (h : Nat) : State :=
  if (s.head h).state = .waiting ∧ (s.head h).joinIndex = some s.run.cursor then
    if s.barred h then ((s.changeHead h .heldNeedle none).skipEntry h).1
    else (s.changeHead h .active none).markEntries h s.run.cursor
  else s

/-- The heads that join at a JOIN halt, in ascending order (R150). -/
def State.joinHeads (s : State) : State := headNumbers.foldl (fun t h => t.joinHead h) s

/-- The change that a COLOUR halt begins (R70, R105). -/
def State.changeAtHalt (s : State) (running : Bool) : State :=
  let e := s.colourEntry s.run.colourBlock
  s.startChange e.needle (if running then entryAction e.action else .pause)

/-- The outcome of a halt by its reason (R70). `running` is yes when the run is RUNNING, no when STOPPING. -/
def State.haltOutcome (s : State) (t : Token) (running : Bool) : State :=
  match t.reason with
  | some .colour => s.changeAtHalt running
  | some .pause =>
    let u := s.setRunState .paused
    (if running then u.setStopReason .pause else u).post .pauseRecord 0 (indexParam t.index)
  | some .endRecord => s.finishAtEnd running
  | some .join => if running then s.joinHeads else (s.joinHeads.setRunState .paused).postStopped
  | none => s

/-- A halt whose HALT token has completed is resolved (R70): the halt flag is cleared; in STOPPING the reasons MEMORY
and REPAIR_DONE go before the halt's own. -/
def State.resolveHalt (s : State) (t : Token) : State :=
  let u := s.withSeq { s.seq with haltFlag := false }
  match u.run.state with
  | .running => u.haltOutcome t true
  | .stopping =>
    if u.run.stopReason = .memory then u.enterFault
    else if u.run.stopReason = .repairDone then u.finishRepair
    else u.haltOutcome t false
  | _ => u

/-- The run state after a STOPPED whose completions held no HALT (R67). -/
def State.stoppedOutcome (s : State) : State :=
  match s.run.state with
  | .stopping =>
    if s.run.stopReason = .memory then s.enterFault
    else if s.run.stopReason = .repairDone then s.finishRepair
    else (s.setRunState .paused).postStopped
  | .running => ((s.setRunState .paused).setStopReason .motion).postStopped
  | _ => s

/-- The HALT among completed tokens, which is the last of them (R87, R88). -/
def haltOf (tokens : List Token) : Option Token :=
  match tokens.getLast? with
  | some t => if t.kind = .halt then some t else none
  | none => none

/-- The number of STEP tokens among completed tokens (R86). -/
def stepsIn (tokens : List Token) : Nat := (tokens.filter fun t => decide (t.kind = .step)).length

/-- What a report that the machine is at rest does once its completions are made and handed over: the rollback, then the
halt resolved, or the run state set (R67, R87, R88). -/
def State.comeToRest (s : State) (halt : Option Token) : State :=
  match halt with
  | some t => s.rollback.resolveHalt t
  | none => s.rollback.stoppedOutcome

end Sys2Proof.Machine
end

