-- ==== Sys2Proof/Machine/Prepare.lean ====
section
/-! DEFINITION. Shared operations of the Stitch Sequencer: what its next turn places, the pieces of a split, the tokens
of a halt, and the prepare read it needs (chapters 3, 4 and 5). -/

namespace Sys2Proof.Machine

open Sys2Proof

/-- The three conditions under which the Sequencer prepares (R80). -/
def State.mayPrepare (s : State) : Bool :=
  decide (s.run.state = .running) &&
    decide (s.queue.issued.length + s.queue.prepared.length < Config.queueTokens) && !s.seq.haltFlag

/-- What a turn of preparation places, by the first case of R80 that applies. -/
inductive TurnChoice where
  | piece (sp : Split)
  | haltToken (reason : HaltReason)
  | approach
  | join
  | record
  deriving DecidableEq, Repr, Inhabited

/-- Whether the prepare cursor stands at the join index of a WAITING head in a repair pass (R69, R80). -/
def State.atJoin (s : State) : Bool :=
  decide (s.run.pass = .repair) &&
    headNumbers.any fun h => decide ((s.head h).state = .waiting) && decide ((s.head h).joinIndex = some s.seq.cursor)

/-- The first case of R80 that applies. -/
def State.turnChoice (s : State) : TurnChoice :=
  match s.seq.split with
  | some sp => .piece sp
  | none =>
    match s.seq.halt with
    | some h => .haltToken h.reason
    | none => if s.seq.approach then .approach else if s.atJoin then .join else .record

/-- The physical chunk that holds the record at the prepare cursor (R20). -/
def State.prepareChunk (s : State) : Nat := chunkOf s.armedRecord.blockMap s.seq.cursor

/-- The record at the prepare cursor, when the chunk buffer holds it (R79, R80). At a cursor of L, where a record is
sought only after content changed as in log 2, it is the padding position the chunk holds there, an END (log 38). -/
def State.bufferedRecord (s : State) : Option StitchRecord :=
  match s.seq.buffer with
  | some b => if b.chunk = s.prepareChunk then some (b.records.getD (s.seq.cursor % 4) endOfDesign) else none
  | none => none

/-- The prepare read of the chunk that holds the record at the prepare cursor (R80); none at a cursor of L (log 38). -/
def State.prepareRead (s : State) : Option StoreRead :=
  if s.seq.cursor < s.designLength then some { chunk := s.prepareChunk, index := s.seq.cursor } else none

/-- The prepare read that the next turn needs, if it needs one (R80). -/
def State.prepareWant (s : State) : Option StoreRead :=
  if s.mayPrepare then
    match s.turnChoice with
    | .piece sp => if sp.owner = .record ∧ s.bufferedRecord = none then s.prepareRead else none
    | .record => if s.bufferedRecord = none then s.prepareRead else none
    | _ => none
  else none

/-- Places a token at the tail of the queue under the next sequence number, which wraps after 65,535 (R76). -/
def State.placeToken (s : State) (t : Token) : State :=
  s.withQueue { s.queue with
    prepared := s.queue.prepared ++ [{ t with seq := s.queue.nextSeq }]
    nextSeq := (s.queue.nextSeq + 1) % 65536 }

/-- A TRIM or HALT token at the prepare cursor: no move, no ceiling, the prepared positions as its checkpoint (R69). -/
def State.stillToken (s : State) (kind : TokenKind) (reason : Option HaltReason) (last : Bool) (role : TokenRole) : Token :=
  { seq := 0, kind := kind, reason := reason, mx := 0, my := 0, ceiling := none, index := s.seq.cursor,
    frameAfter := s.seq.frame, lastOfRecord := last, designAfter := s.seq.design, role := role }

/-- A STEP or TRAVEL token (R47) with its ceiling (R53); a STEP lowers a ramp count above 0 by one (R52). -/
def State.placeMove (s : State) (kind : TokenKind) (slow : Bool) (goal : Point) (last : Bool) (design : Point)
    (role : TokenRole) : State :=
  let m := goal.minus s.seq.frame
  let t : Token :=
    { seq := 0, kind := kind, reason := none, mx := m.x, my := m.y,
      ceiling := some (ceilingOf s.constants s.run.speed s.seq.ramp (moveLength m) slow),
      index := s.seq.cursor, frameAfter := goal, lastOfRecord := last, designAfter := design, role := role }
  let u := s.placeToken t
  u.withSeq { u.seq with frame := goal, ramp := if kind = .step then u.seq.ramp - 1 else u.seq.ramp }

/-- The next piece of an approach split (R48): a TRAVEL, never the last of a record; the last piece clears the
approach flag. -/
def State.placeApproachPiece (s : State) (sp : Split) : State :=
  let k := sp.prepared + 1
  let t := s.placeMove .travel false (subTarget sp.start sp.target sp.pieces k) false s.seq.design .approach
  if k = sp.pieces then t.withSeq { t.seq with split := none, approach := false }
  else t.withSeq { t.seq with split := some { sp with prepared := k } }

/-- The next piece of a record's split (R45, R47): TRAVEL, but STEP for the last piece of a STITCH. After the last
piece the prepared design position and the prepare cursor move past the record. -/
def State.placeRecordPiece (s : State) (sp : Split) (r : StitchRecord) : State :=
  let k := sp.prepared + 1
  let last : Bool := decide (k = sp.pieces)
  let kind : TokenKind := if r.kind = .stitch ∧ last then .step else .travel
  let design := positionAfter s.seq.design r
  let t := s.placeMove kind (r.slow && decide (kind = .step)) (subTarget sp.start sp.target sp.pieces k) last design .record
  if last then t.withSeq { t.seq with split := none, design := design, cursor := t.seq.cursor + 1 }
  else t.withSeq { t.seq with split := some { sp with prepared := k } }

/-- A split of the move from the prepared frame position to a target (R46). -/
def State.splitTo (s : State) (goal : Point) (owner : SplitOwner) : Split :=
  { start := s.seq.frame, target := goal, pieces := pieceCount s.constants.maxStep (goal.minus s.seq.frame),
    prepared := 0, owner := owner }

/-- Places a HALT token (R69): the halt flag is set, the halt in progress is absent, and but for a JOIN the prepare
cursor moves past the record. -/
def State.placeHalt (s : State) (reason : HaltReason) : State :=
  let ofRecord : Bool := decide (reason ≠ .join)
  let t := s.placeToken (s.stillToken .halt (some reason) ofRecord .record)
  t.withSeq { t.seq with
    haltFlag := true, halt := none, cursor := if ofRecord then t.seq.cursor + 1 else t.seq.cursor }

/-- Places the TRIM in front of a halt and leaves the halt in progress (R69, R79). -/
def State.placeHaltTrim (s : State) (reason : HaltReason) : State :=
  let t := s.placeToken (s.stillToken .trim none false .haltTrim)
  t.withSeq { t.seq with halt := some { reason := reason, trimPlaced := true } }

/-- The first token of the record at the prepare cursor (R45, R69, R80). -/
def State.placeRecord (s : State) (r : StitchRecord) : State :=
  match r.kind with
  | .stitch =>
    s.placeRecordPiece (s.splitTo (target s.run.transform (positionAfter s.seq.design r)) .record) r
  | .jump =>
    s.placeRecordPiece (s.splitTo (target s.run.transform (positionAfter s.seq.design r)) .record) r
  | .trim =>
    let t := s.placeToken (s.stillToken .trim none true .record)
    t.withSeq { t.seq with cursor := t.seq.cursor + 1 }
  | .colour => if s.constants.trimAtChange then s.placeHaltTrim .colour else s.placeHalt .colour
  | .pause => s.placeHalt .pause
  | .endRecord => s.placeHaltTrim .endRecord

/-- The Sequencer asks for the chunk it needs (R80). -/
def State.askPrepareRead (s : State) : State :=
  match s.prepareRead with
  | some read => s.askRead .sequencer read
  | none => s

/-- The turn at a point where nothing is in progress and no approach is owed: the JOIN halt, or the record at the
prepare cursor, or its prepare read (R80). -/
def State.turnAtRecord (s : State) : State :=
  if s.atJoin then s.placeHalt .join
  else match s.bufferedRecord with
    | some r => s.placeRecord r
    | none => s.askPrepareRead

/-- The turn while the approach flag is pending (R48): the first piece of the approach, or, for a zero approach, the
flag cleared at once and the turn as if it had not been pending. -/
def State.turnAtApproach (s : State) : State :=
  let goal := target s.run.transform s.seq.design
  if goal = s.seq.frame then (s.withSeq { s.seq with approach := false }).turnAtRecord
  else s.placeApproachPiece (s.splitTo goal .approach)

/-- The next piece of the split in progress (R80). -/
def State.turnAtSplit (s : State) (sp : Split) : State :=
  match sp.owner with
  | .approach => s.placeApproachPiece sp
  | .record => match s.bufferedRecord with
    | some r => s.placeRecordPiece sp r
    | none => s.askPrepareRead

/-- One turn of preparation (R80). -/
def State.prepareOne (s : State) : State :=
  if s.mayPrepare then
    match s.turnChoice with
    | .piece sp => s.turnAtSplit sp
    | .haltToken reason => s.placeHalt reason
    | .approach => s.turnAtApproach
    | .join => s.placeHalt .join
    | .record => s.turnAtRecord
  else s

end Sys2Proof.Machine
end

