-- ==== Sys2Proof/Machine/Walks.lean ====
section
/-! DEFINITION. Shared operations of a walk, of the arm trace and of the close scan: what each reads next, the tests and
steps of a walk, and the end of each (chapters 2, 3, 4 and 6). -/

namespace Sys2Proof.Machine

open Sys2Proof

/-! ### The steps of a walk (R96, R97) -/

/-- The end causes of a walk in the order of their codes (R156). -/
inductive WalkEnd where
  | target
  | limit
  | stop
  | memory
  deriving DecidableEq, Repr, Inhabited

/-- R156, the end causes of WALK_DONE. -/
def WalkEnd.code : WalkEnd → Nat
  | .target => 0
  | .limit => 1
  | .stop => 2
  | .memory => 3

/-- What a walk does before a step (R97): it ends without a read, or reads a record. -/
inductive WalkNext where
  | ends (cause : WalkEnd)
  | reads (index : Nat)
  deriving DecidableEq, Repr, Inhabited

/-- The tests of R97 that need no record; `len` is L. -/
def WalkRecord.next (w : WalkRecord) (len : Nat) : WalkNext :=
  match w.mode with
  | .back => if w.cursor = 0 then .ends .limit else .reads (w.cursor - 1)
  | .forward => if len ≤ w.cursor then .ends .limit else .reads w.cursor
  | .toIndex =>
    if w.cursor = w.goal then .ends .target
    else if w.direction = .back then .reads (w.cursor - 1) else .reads w.cursor
  | .toBlock =>
    if w.direction = .back then
      if w.cursor = 0 then .ends .target else .reads (w.cursor - 1)
    else if len ≤ w.cursor then .ends .limit else .reads w.cursor

/-- A step back over record `r` (R96). The stitches passed rise without bound (log 32), and a walk colour block of 0 stays 0
(log 33). -/
def WalkRecord.stepBack (w : WalkRecord) (r : StitchRecord) : WalkRecord :=
  let u := { w with cursor := w.cursor - 1 }
  match r.kind with
  | .stitch => { u with design := w.design.minus ⟨r.dx, r.dy⟩, stitches := w.stitches + 1 }
  | .jump => { u with design := w.design.minus ⟨r.dx, r.dy⟩ }
  | .colour => { u with colourBlock := w.colourBlock - 1 }
  | _ => u

/-- A step forward over record `r` (R96). The stitches passed rise without bound (log 32), and the walk colour block rises
past 127 over changed content (log 33). -/
def WalkRecord.stepForward (w : WalkRecord) (r : StitchRecord) : WalkRecord :=
  let u := { w with cursor := w.cursor + 1 }
  match r.kind with
  | .stitch => { u with design := w.design.plus ⟨r.dx, r.dy⟩, stitches := w.stitches + 1 }
  | .jump => { u with design := w.design.plus ⟨r.dx, r.dy⟩ }
  | .colour => { u with colourBlock := w.colourBlock + 1 }
  | _ => u

/-- What a walk does with the record it has read (R97): the walk record after it, and the end it has met, if any. A TO_INDEX
or TO_BLOCK walk forward that reads END steps over it (log 33). -/
def WalkRecord.meet (w : WalkRecord) (r : StitchRecord) : WalkRecord × Option WalkEnd :=
  match w.mode with
  | .back =>
    let u := w.stepBack r
    (u, if u.stitches = w.goal then some .target else none)
  | .forward =>
    if r.kind = .endRecord then (w, some .limit)
    else
      let u := w.stepForward r
      (u, if u.stitches = w.goal then some .target else none)
  | .toIndex => (if w.direction = .back then w.stepBack r else w.stepForward r, none)
  | .toBlock =>
    if w.direction = .back then
      if r.kind = .colour ∧ w.colourBlock = w.goal then (w, some .target) else (w.stepBack r, none)
    else
      let u := w.stepForward r
      (u, if u.colourBlock = w.goal then some .target else none)

/-! ### The end of a walk (R99) -/

/-- WALK_DONE's parameter (R156). -/
def walkParam (index : Nat) (cause : WalkEnd) : BitVec 32 :=
  BitVec.ofNat 32 (paramField 2 24 cause.code + paramField 18 0 index)

/-- The run record and the Sequencer take the point the walk reached, and the walk record ceases to exist (R99). -/
def State.takeWalk (s : State) (w : WalkRecord) : State :=
  let t := (s.withWalk none).withRun { s.run with
    cursor := w.cursor, design := w.design, colourBlock := w.colourBlock,
    state := if w.cursor = s.designLength then .finished else .paused }
  t.withSeq { t.seq with
    cursor := w.cursor, design := w.design, frame := t.run.frame, approach := true, split := none, halt := none,
    haltFlag := false, buffer := none }

/-- The walk of a repair pass during which the Repair List has become empty, and is empty still, ends the pass (R153),
wherever the walk ended (log 10). -/
def State.finishEmptied (s : State) (w : WalkRecord) : State :=
  if w.listEmptied ∧ s.repairs = [] ∧ s.run.pass = .repair then s.finishRepair else s

/-- A walk ends with a cause (R99): the point is taken, the deferred SKIP entries are made, the heads are placed after
a walk of REPAIR, WALK_DONE is posted, and an emptied repair pass is finished. -/
def State.endWalk (s : State) (w : WalkRecord) (cause : WalkEnd) : State :=
  let taken := (s.dropRead .walk).takeWalk w
  let skipped := (headNumbers.filter fun h => w.deferredSkips.contains h).foldl (fun t h => t.skipOrPost h) taken
  let placed := match w.requester with | .walk => skipped | .repair => skipped.placeAll
  (placed.post .walkDone 0 (walkParam w.cursor cause)).finishEmptied w

/-- The read a walk needs before its next step. -/
def State.walkRead (s : State) (index : Nat) : StoreRead := { chunk := chunkOf s.armedRecord.blockMap index, index := index }

/-- A walk goes on: it ends without a read, or asks for the record of its next step (R97). -/
def State.advanceWalk (s : State) (w : WalkRecord) : State :=
  match w.next s.designLength with
  | .ends cause => s.endWalk w cause
  | .reads i => (s.withWalk (some w)).askRead .walk (s.walkRead i)

/-- A walk starts from the executed point (R94, R95). -/
def State.startWalk (s : State) (requester : WalkRequester) (mode : WalkMode) (goal : Nat) (direction : WalkDirection) :
    State :=
  (s.setRunState .walking).advanceWalk
    { requester := requester, mode := mode, goal := goal, direction := direction, cursor := s.run.cursor,
      design := s.run.design, colourBlock := s.run.colourBlock, stitches := 0, deferredSkips := [], listEmptied := false }

/-- The direction of a TO_INDEX walk (R95). -/
def indexDirection (goal cursor : Nat) : WalkDirection :=
  if goal < cursor then .back else if cursor < goal then .forward else .stay

/-- A TO_INDEX walk toward an index clamped to 0..L−1 (R95). -/
def State.walkToIndex (s : State) (requester : WalkRequester) (i : Nat) : State :=
  let goal := min i (s.designLength - 1)
  s.startWalk requester .toIndex goal (indexDirection goal s.run.cursor)

/-! ### The arm trace (R55, R62, R63) -/

/-- The end of an armed slot's arming: the run-lock released, the armed flag cleared, no slot armed (R11, R62, R63). -/
def State.releaseSlot (s : State) : State :=
  let t := match s.run.armedSlot with
    | some k => s.putSlot k { s.slot k with armed := false }
    | none => s
  t.withRun { t.run with armedSlot := none }

/-- The trace is aborted by DISARM or STOP (R63): the run returns to IDLE and no event is posted. -/
def State.abortTrace (s : State) : State :=
  (((s.withTrace none).dropRead .trace).releaseSlot).setRunState .idle

/-- ARM_FAILED's parameter (R156): `code` is 0 for FIELD_LIMIT and 1 for UNCORRECTABLE. -/
def armFailedParam (slot code index : Nat) : BitVec 32 :=
  BitVec.ofNat 32 (paramField 4 28 slot + paramField 1 24 code + paramField 18 0 index)

/-- The read the trace needs next. -/
def State.traceRead (s : State) (t : ArmTrace) : StoreRead :=
  { chunk := chunkOf s.armedRecord.blockMap t.index, index := t.index }

/-- What the trace finds in the records of a chunk (R55): the trace after them, or the index and target of the first
one outside the field. -/
def traceRecords (c : Constants) (tr : Transform) (len : Nat) : ArmTrace → List StitchRecord → ArmTrace × Option (Nat × Point)
  | t, [] => (t, none)
  | t, r :: rest =>
    if len ≤ t.index then (t, none)
    else
      let d := positionAfter t.position r
      let moves : Bool := decide (r.kind = .stitch) || decide (r.kind = .jump)
      if moves && !inField c (target tr d) then (t, some (t.index, target tr d))
      else traceRecords c tr len { index := t.index + 1, position := d } rest

/-! ### The close scan (R33, R34) -/

/-- The causes of CLOSE_FAILED in the order of their codes (R156). -/
inductive CloseCause where
  | incomplete
  | earlyEnd
  | noEnd
  | span
  | colourCount
  | uncorrectable
  deriving DecidableEq, Repr, Inhabited

/-- R156, the causes of CLOSE_FAILED. -/
def CloseCause.code : CloseCause → Nat
  | .incomplete => 0
  | .earlyEnd => 1
  | .noEnd => 2
  | .span => 3
  | .colourCount => 4
  | .uncorrectable => 5

/-- CLOSE_FAILED's parameter (R156). -/
def closeFailedParam (slot : Nat) (cause : CloseCause) (index : Nat) : BitVec 32 :=
  BitVec.ofNat 32 (paramField 4 28 slot + paramField 3 24 cause.code + paramField 18 0 index)

/-- Extents widened to take in a position (R33). -/
def Extents.widen (e : Extents) (d : Point) : Extents :=
  { xmin := min e.xmin d.x, xmax := max e.xmax d.x, ymin := min e.ymin d.y, ymax := max e.ymax d.y }

/-- Whether a design position lies in −100,000..+100,000 du on both axes (R33). -/
def inSpan (d : Point) : Bool :=
  decide (-100000 ≤ d.x ∧ d.x ≤ 100000 ∧ -100000 ≤ d.y ∧ d.y ≤ 100000)

/-- The examination of one record below L (R33, b, c, f, d). -/
def scanRecord (len : Nat) (c : CloseScan) (r : StitchRecord) : CloseScan ⊕ CloseCause :=
  let next := { c with index := c.index + 1 }
  if r.kind = .endRecord ∧ c.index < len - 1 then .inr .earlyEnd
  else if r.kind ≠ .endRecord ∧ c.index = len - 1 then .inr .noEnd
  else match r.kind with
    | .colour => if c.colours + 1 = 128 then .inr .colourCount else .inl { next with colours := c.colours + 1 }
    | .stitch =>
      let d := positionAfter c.position r
      if inSpan d then .inl { next with position := d, stitches := c.stitches + 1, extents := c.extents.widen d }
      else .inr .span
    | .jump =>
      let d := positionAfter c.position r
      if inSpan d then .inl { next with position := d, extents := c.extents.widen d } else .inr .span
    | _ => .inl next

/-- The examination of the records of a chunk in order; those at an index of L or above are skipped (R33). -/
def scanRecords (len : Nat) : CloseScan → List StitchRecord → CloseScan × Option CloseCause
  | c, [] => (c, none)
  | c, r :: rest =>
    if len ≤ c.index then (c, none)
    else match scanRecord len c r with
      | .inl d => scanRecords len d rest
      | .inr cause => (c, some cause)

/-- The read the close scan needs next. -/
def State.scanRead (s : State) (c : CloseScan) : StoreRead :=
  { chunk := chunkOf (s.slot c.slot).blockMap c.index, index := c.index }

/-- The close scan fails (R34): the slot returns to LOADING, or becomes DAMAGED for UNCORRECTABLE. -/
def State.failScan (s : State) (c : CloseScan) (cause : CloseCause) (index : Nat) : State :=
  let v : SlotState := if cause = .uncorrectable then .damaged else .loading
  let t := (s.withScan none).putSlot c.slot { s.slot c.slot with state := v }
  t.post .closeFailed 0 (closeFailedParam c.slot cause index)

/-- The close scan succeeds (R34): counts and extents are written and the slot becomes READY. -/
def State.passScan (s : State) (c : CloseScan) : State :=
  let t := (s.withScan none).putSlot c.slot
    { s.slot c.slot with
      state := .ready, colourCount := c.colours, stitchCount := c.stitches, extents := c.extents }
  t.post .closeDone 0 (BitVec.ofNat 32 (paramField 4 0 c.slot))

/-! ### What each internal requester reads next (R14) -/

/-- The read an internal requester's operation wants, if it wants one. -/
def State.wantedRead (s : State) : Requester → Option StoreRead
  | .sequencer => s.prepareWant
  | .trace => s.trace.map s.traceRead
  | .walk =>
    match s.walk with
    | some w => match w.next s.designLength with
      | .ends _ => none
      | .reads i => some (s.walkRead i)
    | none => none
  | .closeScan => s.scan.map s.scanRead

/-- The pause of a requester ends, and it makes its next request if its operation wants one (R14). -/
def State.endPause (s : State) (r : Requester) : State :=
  match s.arbiter.request r with
  | .pausing =>
    let t := s.withArbiter (s.arbiter.putRequest r .idle)
    match t.wantedRead r with
    | some read => t.askRead r read
    | none => t
  | _ => s

end Sys2Proof.Machine
end

