-- ==== Sys2Proof/Machine/Loading.lean ====
section
/-! DEFINITION. The commands and events of the loading path: the Design Store and the Slot Table (chapters 1 and 2). -/

namespace Sys2Proof.Machine

open Sys2Proof

/-- What a step answers. -/
abbrev Result := Host.Outcome State Fault Refusal

/-- A frame refused with a code and an empty payload (R168). -/
def State.refuse (s : State) (port : Port) (code : ReplyCode) : State := s.reply port code []

/-! ### Slots -/

/-- The slot record that OPEN_DESIGN sets up (R25). -/
def openedSlot (len : Nat) (blocks : List Nat) : SlotRecord :=
  { SlotRecord.reset with state := .loading, length := len, blockMap := blocks }

/-- The tests and the effect of OPEN_DESIGN (R25). -/
def State.openDesign (s : State) (slot len : Nat) : State :=
  if 15 < slot then s.refuse .p .range
  else if (s.slot slot).state ≠ .empty then s.refuse .p .state
  else if len = 0 ∨ Config.maxLength < len then s.refuse .p .range
  else if s.pool.length < blocksFor len then s.refuse .p .noSpace
  else match s.allocate len with
    | (t, blocks) => (t.putSlot slot (openedSlot len blocks)).reply .p .ok []

/-- OPEN_DESIGN (R25). -/
def execOpenDesign (slot len : Nat) (s : State) : Result := .next (s.onFrame .p fun t => t.openDesign slot len)

/-- The kinds that the access checks note (R22); `write` is yes for WRITE_RECORDS. -/
def State.accessKinds (s : State) (slot index count : Nat) (write : Bool) : FaultKinds :=
  { absent := decide ((s.slot slot).state = .empty)
    length := decide ((s.slot slot).length < index + count)
    readOnly := write && decide ((s.slot slot).state ≠ .loading)
    uncorrectable := false }

/-- The reply code of the noted kind of highest precedence, if any kind is noted (R22). -/
def FaultKinds.replyCode (k : FaultKinds) : Option ReplyCode :=
  if k.absent then some .absent else if k.length then some .length else if k.readOnly then some .readOnly else none

/-- A record of a frame as it is handed to the store (R26), or nothing where its kind is unknown or a STITCH or JUMP
has a delta outside −1,270..+1,270 du. -/
def storedRecord (r : WireRecord) : Option StitchRecord :=
  let within : Bool := decide (-1270 ≤ r.dx ∧ r.dx ≤ 1270 ∧ -1270 ≤ r.dy ∧ r.dy ≤ 1270)
  match recordKindOf r.kindCode with
  | some .stitch => if within then some { kind := .stitch, slow := decide (r.flags % 2 = 1), dx := r.dx, dy := r.dy } else none
  | some .jump => if within then some { kind := .jump, slow := false, dx := r.dx, dy := r.dy } else none
  | some k => some { kind := k, slow := false, dx := 0, dy := 0 }
  | none => none

/-- The records of a frame as they are handed to the store, or nothing where one of them fails (R26, test 4). -/
def storedRecords : List WireRecord → Option (List StitchRecord)
  | [] => some []
  | r :: rest =>
    match storedRecord r, storedRecords rest with
    | some a, some more => some (a :: more)
    | _, _ => none

/-- What the end of a port P record access does and replies (R4, R8, R12, R27, R28). -/
def State.carryOut (s : State) (a : PortAccess) : State × ReplyCode × List Byte :=
  match a.write with
  | some rs =>
    if a.spans.any fun sp => s.runLocked (sp.chunk / Config.blockChunks) then (s, .readOnly, [])
    else match s.writeRequest a.index rs a.spans with
      | (t, .ended _ _) => (t, .ok, [])
      | (t, .uncorrectable first) =>
        (t.recordFault .portP (some .writeRecords) a.slot first .memory, .uncorrectable, beBytes 3 first)
  | none =>
    match s.readSpans a.spans with
    | (t, .ended rs corrected) => (t, .ok, beBytes 1 rs.length ++ rs.flatMap recordBytes ++ flagByte corrected)
    | (t, .uncorrectable first) =>
      ((t.recordFault .portP (some .readRecords) a.slot first .memory).damageSlot a.slot, .uncorrectable, beBytes 3 first)

/-- The request of port P leaves the arbiter, and the path it may hold is granted anew (R14). -/
def State.endPortAccess (s : State) : State :=
  match s.arbiter.holder with
  | some .portP => s.withArbiter { s.arbiter with portP := none, holder := none }.grant
  | _ => s.withArbiter { s.arbiter with portP := none }

/-- An access of port P still waiting when the next record frame ends has in fact ended long before (R15): it is
carried out, its reply lost (log 7). -/
def State.settlePortAccess (s : State) : State :=
  match s.arbiter.portP with
  | some a => match s.carryOut a with
    | (t, _, _) => t.endPortAccess
  | none => s

/-- A record frame that has passed its checks becomes one request to the store, and its reply is owed (R15, R20). -/
def State.askPortAccess (s : State) (slot index count : Nat) (write : Option (List StitchRecord)) : State :=
  let t := s.settlePortAccess
  let a : PortAccess :=
    { slot := slot, index := index, count := count, spans := spansOf (t.slot slot).blockMap index count, write := write,
      replyLost := false }
  let u := t.putPort .p { t.port .p with reply := .empty }
  u.withArbiter ({ u.arbiter with portP := some a } : Arbiter).grant

/-- The tests of WRITE_RECORDS (R22, R26) and its request to the store. -/
def State.writeRecords (s : State) (slot index : Nat) (records : List WireRecord) : State :=
  let count := records.length
  if 15 < slot ∨ count = 0 ∨ 16 < count then s.refuse .p .range
  else if (s.slot slot).state = .closing then s.refuse .p .busy
  else
    let kinds := s.accessKinds slot index count true
    match kinds.replyCode with
    | some code => (s.recordFault .portP (some .writeRecords) slot index kinds).refuse .p code
    | none => match storedRecords records with
      | none => s.refuse .p .range
      | some rs => s.askPortAccess slot index count (some rs)

/-- WRITE_RECORDS (R26). -/
def execWriteRecords (slot index : Nat) (records : List WireRecord) (s : State) : Result :=
  .next (s.onFrame .p fun t => t.writeRecords slot index records)

/-- The tests of READ_RECORDS (R22, R28) and its request to the store. -/
def State.readRecords (s : State) (slot index count : Nat) : State :=
  if 15 < slot ∨ count = 0 ∨ 16 < count then s.refuse .p .range
  else
    let kinds := s.accessKinds slot index count false
    match kinds.replyCode with
    | some code => (s.recordFault .portP (some .readRecords) slot index kinds).refuse .p code
    | none => s.askPortAccess slot index count none

/-- READ_RECORDS (R28). -/
def execReadRecords (slot index count : Nat) (s : State) : Result :=
  .next (s.onFrame .p fun t => t.readRecords slot index count)

/-- The end of the store access of port P: its effect, the path granted anew, and its reply, unless a later frame has
started (R15). -/
def State.portAccessDone (s : State) : State :=
  match s.arbiter.holder, s.arbiter.portP with
  | some .portP, some a =>
    match s.carryOut a with
    | (t, code, payload) =>
      let u := t.endPortAccess
      if a.replyLost then u else u.reply .p code payload
  | _, _ => s

/-- PORT_STORE_ACCESS_DONE (R15). -/
def execPortStoreAccessDone (s : State) : Result := .next (s.onEvent fun t => t.portAccessDone)

/-- REQUEST_PAUSE_EXPIRY (R14). -/
def execRequestPauseExpiry (r : Requester) (s : State) : Result := .next (s.onEvent fun t => t.endPause r)

/-! ### Colour tables -/

/-- Whether the edit lock of the armed slot refuses an entry of block `first`, and with what (R30). -/
def State.editLock (s : State) (first : Nat) : Option ReplyCode :=
  match s.run.state with
  | .running => if first ≤ s.run.colourBlock then some .locked else none
  | .stopping => if first ≤ s.run.colourBlock then some .locked else none
  | .changing => if first ≤ s.run.colourBlock then some .locked else none
  | .walking => some .busy
  | _ => none

/-- Defines consecutive colour table entries from `first` on (R29). -/
def SlotRecord.putColours (r : SlotRecord) : Nat → List ColourEntry → SlotRecord
  | _, [] => r
  | b, e :: rest => (r.putColour b e).putColours (b + 1) rest

/-- The tests and the effect of SET_COLOURS (R29). -/
def State.setColours (s : State) (slot first : Nat) (entries : List ColourEntry) : State :=
  let count := entries.length
  let write := (s.putSlot slot ((s.slot slot).putColours first entries)).reply .p .ok []
  if 15 < slot ∨ count = 0 ∨ 16 < count then s.refuse .p .range
  else if (s.slot slot).state = .empty then s.refuse .p .absent
  else if (s.slot slot).state = .closing then s.refuse .p .busy
  else if (s.slot slot).state = .damaged then s.refuse .p .state
  else if 127 < first + count - 1 then s.refuse .p .range
  else if entries.any fun e => decide (e.needle = 0) || decide (s.constants.needles < e.needle) then s.refuse .p .range
  else if (s.slot slot).armed then
    match s.editLock first with
    | some code => s.refuse .p code
    | none => write
  else write

/-- SET_COLOURS (R29). -/
def execSetColours (slot first : Nat) (entries : List ColourEntry) (s : State) : Result :=
  .next (s.onFrame .p fun t => t.setColours slot first entries)

/-- A colour table entry in a reply: undefined, or its needle and action (R31, R167). -/
def colourBytes : Option ColourEntry → List Byte
  | some e => 0#8 :: (beBytes 1 e.needle ++ beBytes 1 (actionCode e.action))
  | none => [1#8, 0#8, 0#8]

/-- The tests and the reply of READ_COLOURS (R31). -/
def State.readColours (s : State) (slot first count : Nat) : State :=
  if 15 < slot ∨ count = 0 ∨ 16 < count ∨ 127 < first + count - 1 then s.refuse .p .range
  else if (s.slot slot).state = .empty then s.refuse .p .absent
  else s.reply .p .ok
    (beBytes 1 count ++ (List.range count).flatMap fun k => colourBytes ((s.slot slot).colour (first + k)))

/-- READ_COLOURS (R31). -/
def execReadColours (slot first count : Nat) (s : State) : Result :=
  .next (s.onFrame .p fun t => t.readColours slot first count)

/-- The payload of READ_SLOT in the order of R31. -/
def State.slotBytes (s : State) (r : SlotRecord) : List Byte :=
  beBytes 1 r.state.code ++ beBytes 3 r.length ++ beBytes 2 r.blockMap.length ++ flagByte r.keep ++ flagByte r.armed ++
    beBytes 1 r.colourCount ++ beBytes 3 r.stitchCount ++ beSigned 3 r.extents.xmin ++ beSigned 3 r.extents.xmax ++
    beSigned 3 r.extents.ymin ++ beSigned 3 r.extents.ymax ++ beBytes 2 s.pool.length ++ flagByte s.faultRecord.frozen

/-- The test and the reply of READ_SLOT (R31). -/
def State.readSlot (s : State) (slot : Nat) : State :=
  if 15 < slot then s.refuse .p .range else s.reply .p .ok (s.slotBytes (s.slot slot))

/-- READ_SLOT (R31). -/
def execReadSlot (slot : Nat) (s : State) : Result := .next (s.onFrame .p fun t => t.readSlot slot)

/-! ### Closing -/

/-- The tests and the effect of CLOSE_DESIGN (R32). -/
def State.closeDesign (s : State) (slot : Nat) : State :=
  if 15 < slot then s.refuse .p .range
  else if (s.slot slot).state = .closing then s.refuse .p .busy
  else if (s.slot slot).state ≠ .loading then s.refuse .p .state
  else if s.scan.isSome then s.refuse .p .busy
  else
    let c : CloseScan := { slot := slot, index := 0, position := ⟨0, 0⟩, colours := 0, stitches := 0, extents := .zero }
    let t := (s.putSlot slot { s.slot slot with state := .closing }).withScan (some c)
    (t.askRead .closeScan (t.scanRead c)).reply .p .accepted []

/-- CLOSE_DESIGN (R32). -/
def execCloseDesign (slot : Nat) (s : State) : Result := .next (s.onFrame .p fun t => t.closeDesign slot)

/-- The lowest record index below L of a chunk that is not in its written set (R33, a). -/
def missingIndex (c : Chunk) (first len : Nat) : Nat :=
  first + (([0, 1, 2, 3].filter fun p => !(c.cell p).inSet && decide (first + p < len)).headD 0)

/-- The close scan examines the chunk it has read (R33); `t` is the state after the read. -/
def State.scanChunk (t : State) (c : CloseScan) (chunk : Chunk) (result : ReadResult) : State :=
  let len := (t.slot c.slot).length
  if chunk.state ≠ .complete then t.failScan c .incomplete (missingIndex chunk c.index len)
  else match result with
    | .uncorrectable =>
      (t.recordFault .closeScan (some .closeDesign) c.slot c.index .memory).failScan c .uncorrectable c.index
    | .records rs _ => match scanRecords len c rs with
      | (d, some cause) => t.failScan d cause d.index
      | (d, none) => if len ≤ d.index then t.passScan d else t.withScan (some d)

/-- The end of a close scan read (R33, R34). -/
def State.closeScanReadDone (s : State) : State :=
  match s.arbiter.holder, s.arbiter.closeScan with
  | some (.internal .closeScan), .served read live =>
    match s.readChunk read.chunk with
    | (t, result) =>
      let u := t.endAccess .closeScan
      match live, u.scan with
      | true, some c => u.scanChunk c (s.chunk read.chunk) result
      | _, _ => u
  | _, _ => s

/-- CLOSE_SCAN_READ_DONE (R33). -/
def execCloseScanReadDone (s : State) : Result := .next (s.onEvent fun t => t.closeScanReadDone)

/-! ### Deleting, keeping, the fault record -/

/-- The tests and the effect of DELETE (R37). -/
def State.deleteSlot (s : State) (slot : Nat) : State :=
  let r := s.slot slot
  if 15 < slot then s.refuse .p .range
  else if r.armed then s.refuse .p .inUse
  else if r.keep then s.refuse .p .kept
  else if r.state = .closing then s.refuse .p .busy
  else if r.state = .empty then s.refuse .p .absent
  else ((s.release r.blockMap).putSlot slot SlotRecord.reset).reply .p .ok []

/-- DELETE (R37). -/
def execDelete (slot : Nat) (s : State) : Result := .next (s.onFrame .p fun t => t.deleteSlot slot)

/-- The tests and the effect of KEEP (R38). -/
def State.keepSlot (s : State) (slot : Nat) (on : Bool) : State :=
  if 15 < slot then s.refuse .p .range
  else if (s.slot slot).state = .empty then s.refuse .p .absent
  else (s.putSlot slot { s.slot slot with keep := on }).reply .p .ok []

/-- KEEP (R38). -/
def execKeep (slot : Nat) (on : Bool) (s : State) : Result := .next (s.onFrame .p fun t => t.keepSlot slot on)

/-- The access fault record in a reply: the fields of R23 in order (R24, R167). -/
def faultBytes (f : AccessFault) : List Byte :=
  flagByte f.frozen ++ optBytes 1 (f.source.map FaultSource.code) ++ optBytes 1 (f.command.map FaultCommand.code) ++
    optBytes 1 f.slot ++ optBytes 3 f.index ++
    [Config.faultKindsByte f.kinds.absent f.kinds.length f.kinds.readOnly f.kinds.uncorrectable]

/-- CLEAR_FAULT_RECORD (R24): the record as it stood, then emptied and unfrozen. -/
def execClearFaultRecord (s : State) : Result :=
  .next (s.onFrame .p fun t => (t.withFaultRecord .reset).reply .p .ok (faultBytes t.faultRecord))

/-- The chunk after a change of bits, where the store has such a chunk (R3). -/
def State.storeBitChange (s : State) (chunk : Nat) (bits : List Nat) : State :=
  if chunk < Config.storeChunks then s.putChunk chunk ((s.chunk chunk).changeBits bits) else s

/-- STORE_BIT_CHANGE (R3): an event of the world, whatever the reset input. -/
def execStoreBitChange (chunk : Nat) (bits : List Nat) (s : State) : Result := .next (s.storeBitChange chunk bits)

end Sys2Proof.Machine
end

