-- ==== Sys2Proof/Machine/RunCommands.lean ====
section
/-! DEFINITION. The commands of the run and the arm trace (chapters 3 and 4). -/

namespace Sys2Proof.Machine

open Sys2Proof

/-! ### ARM (R60, R61, R92) -/

/-- Whether every colour entry of blocks 0 to C is defined and names no needle above NEEDLES (R60, test 5). -/
def State.coloursComplete (s : State) (r : SlotRecord) : Bool :=
  (List.range (r.colourCount + 1)).all fun b =>
    match r.colour b with
    | some e => decide (e.needle ≤ s.constants.needles)
    | none => false

/-- The Sequencer as ARM leaves it (R61, R92). -/
def armedSequencer (now : Point) : Sequencer :=
  { cursor := 0, design := ⟨0, 0⟩, frame := now, ramp := 0, approach := true, split := none, haltFlag := false,
    halt := none, buffer := none }

/-- The effect of an ARM that is taken (R61, R92): the run record, the Sequencer, the Move Queue and the slot are set,
and the arm trace begins. -/
def State.takeArm (s : State) (slot : Nat) (tr : Transform) (now : Point) : State :=
  let a := (s.putSlot slot { s.slot slot with armed := true }).withRun { s.run with
    state := .arming, armedSlot := some slot, transform := tr, pass := .main, cursor := 0, design := ⟨0, 0⟩,
    frame := now, colourBlock := 0, stopReason := .none, outstanding := false, faultChunk := none }
  let b := ((a.withSeq (armedSequencer now)).dropRead .sequencer).withQueue MoveQueue.reset
  let trace : ArmTrace := { index := 0, position := ⟨0, 0⟩ }
  let c := b.withTrace (some trace)
  c.askRead .trace (c.traceRead trace)

/-- The tests and the effect of ARM (R60, R61). -/
def State.armRun (s : State) (slot sx sy angle : Nat) (mirror : Bool) (ox oy nowX nowY : Nat) : State :=
  let r := s.slot slot
  if 15 < slot then s.refuse .p .range
  else if s.run.state ≠ .idle then s.refuse .p .state
  else if s.ring.state = .enumerating then s.refuse .p .busy
  else if r.state ≠ .ready then s.refuse .p .state
  else if s.coloursComplete r = false then s.refuse .p .incomplete
  else if inField s.constants ⟨ox, oy⟩ = false then s.refuse .p .range
  else if inField s.constants ⟨nowX, nowY⟩ = false then s.refuse .p .range
  else (s.takeArm slot (transformOf sx sy angle mirror ox oy) ⟨nowX, nowY⟩).reply .p .accepted []

/-- ARM (R60, R61). -/
def execArm (slot sx sy angle : Nat) (mirror : Bool) (ox oy nowX nowY : Nat) (s : State) : Result :=
  .next (s.onFrame .p fun t => t.armRun slot sx sy angle mirror ox oy nowX nowY)

/-! ### The arm trace (R55, R62) -/

/-- The trace succeeds (R62). -/
def State.passTrace (s : State) : State :=
  let slot := s.run.armedSlot.getD 0
  ((s.withTrace none).setRunState .armed).post .armDone 0 (BitVec.ofNat 32 (paramField 4 0 slot))

/-- The trace meets a target outside the field (R55, R62). -/
def State.failTraceField (s : State) (index : Nat) (goal : Point) : State :=
  let slot := s.run.armedSlot.getD 0
  (((s.withTrace none).releaseSlot).setRunState .idle).postTarget .armFailed 0 (armFailedParam slot 0 index) (some goal)

/-- The trace meets an uncorrectable chunk (R36, R55, R62): the fault is recorded and the slot becomes DAMAGED. -/
def State.failTraceMemory (s : State) (first : Nat) : State :=
  let slot := s.run.armedSlot.getD 0
  let t := (s.recordFault .trace (some .arm) slot first .memory).damageSlot slot
  (((t.withTrace none).releaseSlot).setRunState .idle).post .armFailed 0 (armFailedParam slot 1 first)

/-- The trace examines the chunk it has read (R55). -/
def State.traceChunk (s : State) (t : ArmTrace) (result : ReadResult) : State :=
  match result with
  | .uncorrectable => s.failTraceMemory t.index
  | .records rs _ => match traceRecords s.constants s.run.transform s.designLength t rs with
    | (_, some (i, goal)) => s.failTraceField i goal
    | (u, none) => if s.designLength ≤ u.index then s.passTrace else s.withTrace (some u)

/-- The end of a trace read (R55). -/
def State.traceReadDone (s : State) : State :=
  match s.arbiter.holder, s.arbiter.trace with
  | some (.internal .trace), .served read live =>
    match s.readChunk read.chunk with
    | (t, result) =>
      let u := t.endAccess .trace
      match live, u.trace with
      | true, some tr => u.traceChunk tr result
      | _, _ => u
  | _, _ => s

/-- TRACE_READ_DONE (R55). -/
def execTraceReadDone (s : State) : Result := .next (s.onEvent fun t => t.traceReadDone)

/-! ### START, STOP, DISARM -/

/-- The effect of a START that is taken (R64): a change where the needles differ, else RUNNING with the ramp reloaded. -/
def State.takeStart (s : State) : State :=
  let e := s.colourEntry s.run.colourBlock
  let t := s.setStopReason .none
  if e.needle ≠ s.run.needle then t.startChange e.needle .resume
  else (t.setRunState .running).withSeq { t.seq with ramp := s.constants.ramp }

/-- The tests and the effect of START (R64). -/
def State.startRun (s : State) : State :=
  if s.run.state = .walking then s.refuse .p .busy
  else if s.run.state ≠ .armed ∧ s.run.state ≠ .paused then s.refuse .p .state
  else if s.anyHead .active = false ∧ s.anyHead .waiting = false then s.refuse .p .noHeads
  else s.takeStart.reply .p .ok []

/-- START (R64). -/
def execStart (s : State) : Result := .next (s.onFrame .p State.startRun)

/-- The stop reason of a STOP by its port (R65). -/
def stopReasonOf : Port → StopReason
  | .p => .panel
  | .m => .motionRequest

/-- What STOP does by the run state (R63, R65, R100). -/
def State.stopRun (s : State) (port : Port) : State :=
  match s.run.state with
  | .running => (s.setRunState .stopping).setStopReason (stopReasonOf port)
  | .changing => s.pauseChange.setStopReason (stopReasonOf port)
  | .walking => match s.walk with
    | some w => s.endWalk w .stop
    | none => s
  | .arming => s.abortTrace
  | _ => s

/-- STOP (R65). -/
def execStop (port : Port) (s : State) : Result := .next (s.onFrame port fun t => (t.stopRun port).reply port .ok [])

/-- Whether DISARM returns a head to sewing (R73, step 4; R134): HELD_FAULT, RESTING, WAITING and HELD_NEEDLE heads on
which the machine needle is not inhibited. No head with the machine needle inhibited becomes ACTIVE (log 8). -/
def State.disarmReturns (s : State) (h : Nat) : Bool :=
  let st := (s.head h).state
  (decide (st = .heldFault) || decide (st = .resting) || decide (st = .waiting) || decide (st = .heldNeedle)) && !s.barred h

/-- Heads are returned to sewing (R73, step 4). R73 gives no order: they are visited in ascending order, all four held states
in one pass, and their requests queued so (log 31). -/
def State.returnHeads (s : State) : State :=
  headNumbers.foldl (fun t h => if t.disarmReturns h then t.setHeadState h .active none else t) s

/-- The effect of a DISARM that is taken (R73), its six steps in order. -/
def State.takeDisarm (s : State) : State :=
  let a := if s.run.state = .arming then (s.withTrace none).dropRead .trace else s
  let b := (a.withQueue { a.queue with issued := [], prepared := [] }).withSeq
    { a.seq with haltFlag := false, split := none, halt := none, approach := false }
  let c := ((b.setRepairs []).returnHeads).releaseSlot
  (c.withRun { c.run with pass := .main, outstanding := false, faultChunk := none }).setRunState .idle

/-- The test and the effect of DISARM (R73). -/
def State.disarmRun (s : State) : State :=
  match s.run.state with
  | .idle => s.refuse .p .state
  | .running => s.refuse .p .state
  | .stopping => s.refuse .p .state
  | .changing => s.refuse .p .state
  | .walking => s.refuse .p .state
  | _ => s.takeDisarm.reply .p .ok []

/-- DISARM (R73). -/
def execDisarm (s : State) : Result := .next (s.onFrame .p State.disarmRun)

/-! ### SET_SPEED and READ_RUN -/

/-- SET_SPEED (R51, R74). -/
def execSetSpeed (value : Nat) (s : State) : Result :=
  .next (s.onFrame .p fun t => (t.withRun { t.run with speed := speedOf value }).reply .p .ok (beBytes 2 (speedOf value)))

/-- The code of a stop reason in a reply, where the field holds one: NONE goes out as a field without a value (R167). -/
def StopReason.held (r : StopReason) : Option Nat := if r = .none then Option.none else some r.code

/-- The run record in a reply: the fields of R58 in order (R75, R167). -/
def runBytes (r : RunRecord) : List Byte :=
  let t := r.transform
  beBytes 1 r.state.code ++ optBytes 1 r.armedSlot ++ beBytes 2 t.sx ++ beBytes 2 t.sy ++ beBytes 2 t.angle ++
    flagByte t.mirror ++ beSigned 2 t.ox ++ beSigned 2 t.oy ++ beSigned 2 t.sine ++ beSigned 2 t.cosine ++
    beBytes 1 r.pass.code ++ beBytes 3 r.cursor ++ beSigned 3 r.design.x ++ beSigned 3 r.design.y ++
    beSigned 2 r.frame.x ++ beSigned 2 r.frame.y ++ beBytes 1 r.colourBlock ++ beBytes 1 r.needle ++ beBytes 2 r.speed ++
    optBytes 1 r.stopReason.held ++ flagByte r.outstanding ++ optBytes 2 r.faultChunk

/-- The three figures of the change in progress (R104), each a field that may be absent. -/
def changeBytes (c : Option ChangeRecord) : List Byte :=
  optBytes 1 (c.map (·.target)) ++ optBytes 1 (c.map (·.action.code)) ++ optBytes 1 (c.map (·.confirm.length))

/-- The payload of READ_RUN (R75, R104). -/
def State.readRunBytes (s : State) : List Byte :=
  runBytes s.run ++ beBytes 3 s.seq.cursor ++ flagByte s.seq.haltFlag ++ beBytes 1 s.queue.issued.length ++
    beBytes 1 s.queue.prepared.length ++ changeBytes s.change

/-- READ_RUN (R75). -/
def execReadRun (s : State) : Result := .next (s.onFrame .p fun t => t.reply .p .ok t.readRunBytes)

end Sys2Proof.Machine
end

