-- ==== Sys2Proof/Machine/Motion.lean ====
section
/-! DEFINITION. The Sequencer's events and the commands of the motion processor (chapter 5). -/

namespace Sys2Proof.Machine

open Sys2Proof

/-- PREPARE_TURN (R80). -/
def execPrepareTurn (s : State) : Result := .next (s.onEvent State.prepareOne)

/-- An uncorrectable prepare read (R36, R72): the fault chunk, the access fault record, a stop requested with reason
MEMORY. -/
def State.prepareFault (s : State) (read : StoreRead) : State :=
  let slot := s.run.armedSlot.getD 0
  let t := s.withRun { s.run with faultChunk := some read.chunk }
  (t.recordFault .sequencer none slot (read.index - read.index % 4) .memory).requestStop .memory

/-- The end of a prepare read (R80): the chunk buffer is filled, or preparation stops (R72). -/
def State.prepareReadDone (s : State) : State :=
  match s.arbiter.holder, s.arbiter.sequencer with
  | some (.internal .sequencer), .served read live =>
    match s.readChunk read.chunk with
    | (t, result) =>
      let u := t.endAccess .sequencer
      if live then
        match result with
        | .records rs _ => u.withSeq { u.seq with buffer := some { chunk := read.chunk, records := rs } }
        | .uncorrectable => u.prepareFault read
      else u
  | _, _ => s

/-- PREPARE_READ_DONE (R80). -/
def execPrepareReadDone (s : State) : Result := .next (s.onEvent State.prepareReadDone)

/-! ### FETCH_MOVES (R82, R83) -/

/-- How many tokens a FETCH_MOVES of `max` issues (R82). -/
def State.issueCount (s : State) (max : Nat) : Nat :=
  if s.run.state = .running then
    min max (min s.queue.prepared.length (Config.issuedTokens - s.queue.issued.length))
  else 0

/-- Whether a FETCH_MOVES opens a starvation episode or finds one open (R83). -/
def State.starves (s : State) : Bool :=
  decide (s.run.state = .running) && decide (s.queue.prepared = []) && !s.seq.haltFlag

/-- The issue of the oldest `n` prepared tokens (R82); a token issued clears the starvation mark (R83). -/
def State.issue (s : State) (n : Nat) : State :=
  s.withQueue { s.queue with
    issued := s.queue.issued ++ s.queue.prepared.take n
    prepared := s.queue.prepared.drop n
    starved := s.queue.starved && decide (n = 0) }

/-- The opening of a starvation episode (R83). -/
def State.openStarvation (s : State) : State :=
  if s.starves && !s.queue.starved then
    (s.withQueue { s.queue with starved := true }).post .queueStarved 0 (indexParam s.seq.cursor)
  else s

/-- The test and the effect of FETCH_MOVES (R82, R83). -/
def State.fetchMoves (s : State) (max : Nat) : State :=
  if max = 0 ∨ 8 < max then s.refuse .m .range
  else
    let n := s.issueCount max
    let tokens := s.queue.prepared.take n
    ((s.openStarvation).issue n).reply .m .ok (beBytes 1 tokens.length ++ tokens.flatMap tokenBytes)

/-- FETCH_MOVES (R82). -/
def execFetchMoves (max : Nat) (s : State) : Result := .next (s.onFrame .m fun t => t.fetchMoves max)

/-! ### DONE and STOPPED (R84 to R88) -/

/-- The reply of a report: the tokens completed and the executed cursor after them (R84, R88). -/
def State.reportReply (s : State) (n : Nat) : State := s.reply .m .ok (beBytes 1 n ++ beBytes 3 s.run.cursor)

/-- The completions and the handover of a report that completes the oldest `n` issued tokens (R85, R86). -/
def State.completeReport (s : State) (n : Nat) : State :=
  (s.completeTokens n).handover (stepsIn (s.queue.issued.take n))

/-- The effect of a DONE (R84 to R87): the completions, the handover, and, where a HALT completed, what a STOPPED that
names it does. -/
def State.takeDone (s : State) (n : Nat) : State :=
  let t := s.completeReport n
  match haltOf (s.queue.issued.take n) with
  | some h => t.comeToRest (some h)
  | none => t

/-- The test and the effect of DONE (R84). -/
def State.doneReport (s : State) (seq : Nat) : State :=
  match issuedCount seq s.queue.issued with
  | some n => (s.takeDone n).reportReply n
  | none => s.refuse .m .sequence

/-- DONE (R84). -/
def execDone (seq : Nat) (s : State) : Result := .next (s.onFrame .m fun t => t.doneReport seq)

/-- The effect of a STOPPED that completes the oldest `n` issued tokens (R88). -/
def State.takeStopped (s : State) (n : Nat) : State :=
  (s.completeReport n).comeToRest (haltOf (s.queue.issued.take n))

/-- How many tokens a STOPPED completes, if it is taken (R88): `form` 0 names a sequence number, 1 is NONE, and any
other names no token (R167). -/
def State.stoppedCount (s : State) (form seq : Nat) : Option Nat :=
  if form = 0 then
    match issuedCount seq s.queue.issued with
    | some n => some n
    | none => if s.queue.lastDone = some seq then some 0 else none
  else if form = 1 then (if s.queue.lastDone = none then some 0 else none)
  else none

/-- The test and the effect of STOPPED (R88). -/
def State.stoppedReport (s : State) (form seq : Nat) : State :=
  match s.stoppedCount form seq with
  | some n => (s.takeStopped n).reportReply n
  | none => s.refuse .m .sequence

/-- STOPPED (R88). -/
def execStopped (form seq : Nat) (s : State) : Result := .next (s.onFrame .m fun t => t.stoppedReport form seq)

end Sys2Proof.Machine
end

