-- ==== Sys2Proof/Machine/WalkCommands.lean ====
section
/-! DEFINITION. The walk and the repair pass: WALK, the reads of a walk, REPAIR and READ_REPAIRS (chapters 6 and 10). -/

namespace Sys2Proof.Machine

open Sys2Proof

/-- Whether a close scan, the arm trace or a walk is in progress (R94, R148). -/
def State.operationInProgress (s : State) : Bool :=
  s.scan.isSome || decide (s.run.state = .arming) || decide (s.run.state = .walking)

/-- The walk that a WALK command asks for (R95). -/
def State.beginWalk (s : State) (mode : WalkMode) (n : Nat) : State :=
  match mode with
  | .back => s.startWalk .walk .back n .back
  | .forward => s.startWalk .walk .forward n .forward
  | .toIndex => s.walkToIndex .walk n
  | .toBlock =>
    let goal := min n s.armedRecord.colourCount
    s.startWalk .walk .toBlock goal (if goal ≤ s.run.colourBlock then .back else .forward)

/-- The mode a code names (R167). -/
def walkModeOf : Nat → Option WalkMode
  | 0 => some .back
  | 1 => some .forward
  | 2 => some .toIndex
  | 3 => some .toBlock
  | _ => none

/-- Whether a walk mode counts stitches, and so takes 1 to 9,999 of them (R94). -/
def WalkMode.counts : WalkMode → Bool
  | .back => true
  | .forward => true
  | _ => false

/-- The tests and the effect of WALK (R94). -/
def State.walkRun (s : State) (mode n : Nat) : State :=
  match walkModeOf mode with
  | none => s.refuse .p .range
  | some m =>
    if m.counts = true ∧ (n = 0 ∨ 9999 < n) then s.refuse .p .range
    else if s.operationInProgress then s.refuse .p .busy
    else if s.run.state ≠ .armed ∧ s.run.state ≠ .paused ∧ s.run.state ≠ .finished then s.refuse .p .state
    else (s.beginWalk m n).reply .p .accepted []

/-- WALK (R94). -/
def execWalk (mode n : Nat) (s : State) : Result := .next (s.onFrame .p fun t => t.walkRun mode n)

/-- The command an access fault of a walk names (R23, R101). -/
def walkCommand : WalkRequester → FaultCommand
  | .walk => .walk
  | .repair => .repair

/-- A walk meets an uncorrectable chunk (R101). -/
def State.walkFault (s : State) (w : WalkRecord) (read : StoreRead) : State :=
  let slot := s.run.armedSlot.getD 0
  let t := (s.recordFault .walk (some (walkCommand w.requester)) slot (read.index - read.index % 4) .memory).damageSlot slot
  (t.post .memoryFault 0 (chunkParam read.chunk)).endWalk w .memory

/-- A walk meets the record it has read (R96, R97): it ends, or goes on. -/
def State.walkRecord (s : State) (w : WalkRecord) (r : StitchRecord) : State :=
  match w.meet r with
  | (u, some cause) => s.endWalk u cause
  | (u, none) => s.advanceWalk u

/-- The end of a walk read (R96). -/
def State.walkReadDone (s : State) : State :=
  match s.arbiter.holder, s.arbiter.walk with
  | some (.internal .walk), .served read live =>
    match s.readChunk read.chunk with
    | (t, result) =>
      let u := t.endAccess .walk
      match live, u.walk with
      | true, some w =>
        match result with
        | .records rs _ => u.walkRecord w (rs.getD (read.index % 4) endOfDesign)
        | .uncorrectable => u.walkFault w read
      | _, _ => u
  | _, _ => s

/-- WALK_READ_DONE (R96). -/
def execWalkReadDone (s : State) : Result := .next (s.onEvent State.walkReadDone)

/-! ### REPAIR (R148) -/

/-- The least from-index in the list (R148), the first entry's in the order of R145. -/
def leastFrom (l : List RepairEntry) : Nat := ((l.map (·.fromIndex)).min?).getD 0

/-- The effect of a REPAIR that is taken (R148). -/
def State.takeRepair (s : State) : State :=
  let t := s.withRun { s.run with pass := .repair, outstanding := false }
  (t.withRepairs (t.repairs.map fun e => { e with sewing := false, deferred := none })).walkToIndex .repair
    (leastFrom s.repairs)

/-- The tests and the effect of REPAIR (R148). -/
def State.repairRun (s : State) : State :=
  if s.operationInProgress then s.refuse .p .busy
  else if s.run.state ≠ .paused ∧ s.run.state ≠ .finished then s.refuse .p .state
  else if s.repairs = [] then s.refuse .p .state
  else s.takeRepair.reply .p .accepted []

/-- REPAIR (R148). -/
def execRepair (s : State) : Result := .next (s.onFrame .p State.repairRun)

/-! ### READ_REPAIRS (R154) -/

/-- The kind and the cause of an entry in a reply (R145, R167). -/
def kindBytes : RepairKind → List Byte
  | .fault c => beBytes 1 0 ++ optBytes 1 (some c.code)
  | .skip => beBytes 1 1 ++ optBytes 1 none

/-- The fields of an entry in a reply, in the order of R145 (R154, R167). -/
def entryBytes (e : RepairEntry) : List Byte :=
  beBytes 1 e.head ++ kindBytes e.kind ++ beBytes 3 e.fromIndex ++ optBytes 1 e.toBlock ++ optBytes 3 e.toIndex ++
    optBytes 1 e.deferred ++ flagByte e.sewing

/-- One position of READ_REPAIRS: its entry, or empty with the field reading 0 (R154, R167). -/
def positionBytes : Option RepairEntry → List Byte
  | some e => 0#8 :: entryBytes e
  | none => 1#8 :: List.replicate 16 0#8

/-- The test and the reply of READ_REPAIRS (R154). -/
def State.readRepairs (s : State) (first count : Nat) : State :=
  if 47 < first ∨ count = 0 ∨ 8 < count then s.refuse .p .range
  else s.reply .p .ok (beBytes 1 s.repairs.length ++ beBytes 1 count ++
    (List.range count).flatMap fun k => positionBytes s.repairs[first + k]?)

/-- READ_REPAIRS (R154). -/
def execReadRepairs (first count : Nat) (s : State) : Result := .next (s.onFrame .p fun t => t.readRepairs first count)

end Sys2Proof.Machine
end

