-- ==== Sys2Proof/Machine/RingCommands.lean ====
section
/-! DEFINITION. The head ring and the Colour Changer's deadline: transactions, answers, timeouts, failover, the
enumeration (chapters 7, 8 and 9). -/

namespace Sys2Proof.Machine

open Sys2Proof

/-! ### Beginning a transaction (R121, R126, R127) -/

/-- A transaction of a request on an end. -/
def transactionOf (r : RingRequest) (e : RingEnd) (both roundRobin afterSelection ofChange : Bool) : Transaction :=
  { request := r, frame := requestFrame r, ringEnd := e, bothEnds := both, roundRobin := roundRobin,
    afterSelection := afterSelection, ofChange := ofChange, headLost := false, discarded := false }

/-- Puts a transaction in flight. -/
def State.fly (s : State) (t : Transaction) : State := s.withRing { s.ring with flight := some t }

/-- Whether the selection of the present change has been sent (R107). -/
def State.selectionSent (s : State) : Bool := match s.change with | some c => c.selectionSent | none => false

/-- A unicast on the end of its head's path (R121). -/
def State.flyUnicast (s : State) (r : RingRequest) (roundRobin : Bool) : State :=
  s.fly (transactionOf r ((s.ringRecord r.head).path.getD .a) false roundRobin s.selectionSent false)

/-- Whether SELECT_NEEDLE goes out on end B too (R126). -/
def State.needsEndB (s : State) : Bool :=
  decide (s.ring.state = .split) ||
    headNumbers.any fun h =>
      s.present h && (s.ringRecord h).switched && decide ((s.ringRecord h).path = some .b)

/-- A SELECT_NEEDLE broadcast (R106, R126). -/
def State.flySelection (s : State) (r : RingRequest) : State :=
  s.fly (transactionOf r .a s.needsEndB false s.selectionSent s.change.isSome)

/-- A recovery POLL ends with a miss (R124, R143): the head stays LOST, and HEAD_LOST is posted with its cause. -/
def State.recoveryMiss (s : State) (h : Nat) : State :=
  s.post .headLost h (BitVec.ofNat 32 (match (s.head h).cause with | some c => c.code | none => 0))

/-- The head the round-robin polls next: the next number above the pointer, past 24 back to 1, whose head is neither
ABSENT nor LOST (R127). -/
def State.nextPolled (s : State) : Option Nat :=
  let p := s.ring.pollPointer
  ((headNumbers.filter fun h => decide (p < h)) ++ headNumbers.filter fun h => decide (h ≤ p)).find? fun h => s.present h

/-- A round-robin POLL, or an idle ring (R127). -/
def State.flyPoll (s : State) : State :=
  match s.nextPolled with
  | some h =>
    (s.withRing { s.ring with pollPointer := h }).flyUnicast { function := .poll, head := h, data := 0 } true
  | none => s

/-- The oldest request of the queue begins its transaction (R124, R127); an empty queue gives a round-robin POLL. A
recovery POLL whose head is no longer LOST is removed and not sent, and the next request has its turn in the same step; one
whose head has no path ends at once as a miss, and the step with it (log 39). -/
def State.flyOldest (s : State) : List RingRequest → State
  | [] => (s.withRing { s.ring with requests := [] }).flyPoll
  | r :: rest =>
    let t := s.withRing { s.ring with requests := rest }
    if r.head = broadcastId then t.flySelection r
    else if r.function = .poll then
      if (s.head r.head).state ≠ .lost then s.flyOldest rest
      else if (s.ringRecord r.head).path = none then t.recoveryMiss r.head
      else t.flyUnicast r false
    else t.flyUnicast r false

/-- The next transaction of the enumeration (R128, R129). -/
def State.flyEnumeration (s : State) : State :=
  match s.ring.enumeration with
  | none => s
  | some e => match e.phase with
    | .broadcast =>
      s.fly (transactionOf { function := .assign, head := broadcastId, data := 0 } .a true false false false)
    | .fromA k => s.fly (transactionOf { function := .assign, head := k, data := k } .a false false false false)
    | .fromB k => s.fly (transactionOf { function := .assign, head := k, data := k } .b false false false false)

/-- The start of the next transaction once the idle gap has passed (R121, R127). -/
def State.ringTransactionStart (s : State) : State :=
  match s.ring.flight with
  | some _ => s
  | none => match s.ring.state with
    | .down => s
    | .enumerating => s.flyEnumeration
    | _ => s.flyOldest s.ring.requests

/-- RING_TRANSACTION_START (R127). -/
def execRingTransactionStart (s : State) : Result := .next (s.onEvent State.ringTransactionStart)

/-! ### Enumeration (R128 to R130) -/

/-- Whether a head was found: from end A the heads 1 to nA, from end B the nB heads down from N_HEADS (R129). -/
def foundPath (n foundA foundB h : Nat) : Option RingEnd :=
  if h ≤ foundA then some .a else if n - foundB < h ∧ h ≤ n then some .b else none

/-- One head is placed at the end of the enumeration (R130). -/
def State.placeFound (s : State) (foundA foundB h : Nat) : State :=
  let n := s.constants.nHeads
  match foundPath n foundA foundB h with
  | some e =>
    let t := s.putRingRecord h { s.ringRecord h with path := some e }
    if t.barred h then t.setHeadState h .heldNeedle none else t.setHeadState h .active none
  | none =>
    if h ≤ n then s.setHeadState h .lost (some (.loss .absentAtStart)) else s.setHeadState h .absent none

/-- The end of the enumeration (R130): the ring state, every head in ascending order, RING_DONE. -/
def State.endEnumeration (s : State) (foundA foundB : Nat) : State :=
  let t := s.withRing { s.ring with
    enumeration := none, state := if foundA = s.constants.nHeads then .full else .split }
  (headNumbers.foldl (fun u h => u.placeFound foundA foundB h) t).post .ringDone 0
    (BitVec.ofNat 32 (paramField 8 8 foundA + paramField 8 0 foundB))

/-- Writes the enumeration in progress. -/
def State.setEnumeration (s : State) (e : Enumeration) : State := s.withRing { s.ring with enumeration := some e }

/-- A good answer to an ASSIGN (R129): the head is found, and the next ASSIGN follows or the enumeration ends. -/
def State.assignAnswered (s : State) : State :=
  match s.ring.enumeration with
  | none => s
  | some e =>
    let n := s.constants.nHeads
    match e.phase with
    | .broadcast => s
    | .fromA k =>
      if e.foundA + 1 = n then s.endEnumeration (e.foundA + 1) e.foundB
      else s.setEnumeration { e with foundA := e.foundA + 1, phase := .fromA (k + 1) }
    | .fromB k =>
      if k - 1 ≤ e.foundA then s.endEnumeration e.foundA (e.foundB + 1)
      else s.setEnumeration { e with foundB := e.foundB + 1, phase := .fromB (k - 1) }

/-- An ASSIGN ends with a miss (R129): end B follows end A, and a miss from end B ends the enumeration. -/
def State.assignMissed (s : State) : State :=
  match s.ring.enumeration with
  | none => s
  | some e => match e.phase with
    | .broadcast => s
    | .fromA _ => s.setEnumeration { e with phase := .fromB s.constants.nHeads }
    | .fromB _ => s.endEnumeration e.foundA e.foundB

/-- What RING_START does to the heads: every one ABSENT, nothing queued (R128, R132). -/
def State.absentHeads (s : State) : State :=
  headNumbers.foldl (fun t h => t.putHead h { t.head h with state := .absent, cause := none }) s

/-- The effect of a RING_START that is taken (R128). -/
def State.takeRingStart (s : State) : State :=
  let ring : HeadRing :=
    { state := .enumerating, requests := [], flight := s.ring.flight.map fun t => { t with discarded := true },
      pollPointer := 0, enumeration := some { phase := .broadcast, foundA := 0, foundB := 0 }, records := [] }
  ((s.withRing ring).absentHeads).setRepairs []

/-- The tests and the effect of RING_START (R128). -/
def State.startRing (s : State) : State :=
  if s.run.state ≠ .idle then s.refuse .p .state
  else if s.ring.state = .enumerating then s.refuse .p .busy
  else s.takeRingStart.reply .p .accepted []

/-- RING_START (R128). -/
def execRingStart (s : State) : Result := .next (s.onFrame .p State.startRing)

/-! ### Broadcasts (R106, R121) -/

/-- The selection of the present change has been sent: the mark, and the deadline T_CC later (R106). -/
def State.markSelectionSent (s : State) : State :=
  s.withChange (s.change.map fun c => { c with selectionSent := true, deadline := some s.constants.changeTime })

/-- The end of a broadcast (R106, R121, R129). -/
def State.broadcastSent (s : State) : State :=
  match s.ring.flight with
  | none => s
  | some t =>
    if t.request.head ≠ broadcastId then s
    else
      let u := s.withRing { s.ring with flight := none }
      if t.discarded then u
      else if t.request.function = .assign then
        match u.ring.enumeration with
        | some e => u.setEnumeration { e with phase := .fromA 1 }
        | none => u
      else if t.ofChange then u.markSelectionSent
      else u

/-- BROADCAST_SENT (R106). -/
def execBroadcastSent (s : State) : Result := .next (s.onEvent State.broadcastSent)

/-! ### Answers (R122, R124, R135 to R143) -/

/-- The last reported needle and presser are written from an answer (R132, R135). -/
def State.reportNeedle (s : State) (h : Nat) (w : RingWord) : State :=
  s.putHead h { s.head h with needle := answerNeedle w, presserUp := answerPresserUp w }

/-- BOBBIN_LOW of an answer (R140). -/
def State.watchBobbin (s : State) (h : Nat) (w : RingWord) : State :=
  let r := s.head h
  let t := s.putHead h { r with bobbinWarned := answerBobbinLow w }
  if answerBobbinLow w && !r.bobbinWarned then t.post .bobbinLow h (indexParam t.run.cursor) else t

/-- THREAD_MOVED of an answer from an ACTIVE head (R136). -/
def State.watchMotion (s : State) (h : Nat) (w : RingWord) : State :=
  if (s.head h).state = .active ∧ answerThreadMoved w then
    s.putHead h { s.head h with noMotion := 0, lastMotion := s.run.cursor }
  else s

/-- TENSION_HIGH of an answer from an ACTIVE head, or its absence (R137): the state after it, and whether it made a
fault. -/
def State.watchTension (s : State) (h : Nat) (w : RingWord) : State × Bool :=
  if (s.head h).state = .active then
    if answerTensionHigh w then
      let t := s.putHead h { s.head h with tension := (s.head h).tension + 1 }
      if s.constants.tensionLimit ≤ (s.head h).tension + 1 then (t.faultAction h .tension, true) else (t, false)
    else (s.putHead h { s.head h with tension := 0 }, false)
  else (s, false)

/-- HEAD_SWITCH's parameter (R156). -/
def switchParam (result : Nat) : BitVec 32 := BitVec.ofNat 32 result

/-- HEAD_SWITCH of an answer (R141): taken out 0, brought back 1, refused 2. -/
def State.watchSwitch (s : State) (h : Nat) (w : RingWord) : State :=
  if answerHeadSwitch w = false then s
  else
    match (s.head h).state with
    | .active => (s.changeHead h .heldOperator none).post .headSwitch h (switchParam 0)
    | .heldOperator =>
      if s.run.state = .running ∨ s.run.state = .stopping ∨ s.barred h then s.post .headSwitch h (switchParam 2)
      else (s.returnHead h).post .headSwitch h (switchParam 1)
    | _ => s.post .headSwitch h (switchParam 2)

/-- A head reports BOARD_FAULT (R135, step 2; R109, R139). -/
def State.boardFault (s : State) (h : Nat) : State :=
  let wasActive : Bool := decide ((s.head h).state = .active)
  ((s.loseHead h .board).stopForLoss wasActive).settleChange

/-- The Head Supervisor acts on an answer of a head that is not LOST (R135). -/
def State.superviseAnswer (s : State) (h : Nat) (w : RingWord) : State :=
  let a := s.reportNeedle h w
  if answerBoardFault w then a.boardFault h
  else
    match ((a.watchBobbin h w).watchMotion h w).watchTension h w with
    | (b, faulted) =>
      let c := b.watchSwitch h w
      if faulted then c.applyPolicy else c

/-- The recovery POLL of a LOST head is answered (R124, R143). With BOARD_FAULT the head stays LOST, and since it does not
become LOST no request queued for it is removed (R126). -/
def State.recoveryAnswered (s : State) (h : Nat) (w : RingWord) : State :=
  let a := (s.putRingRecord h { s.ringRecord h with misses := 0 }).reportNeedle h w
  if answerBoardFault w then (a.setHeadState h .lost (some (.loss .board))).post .headLost h (lossParam .board)
  else
    match a.repairs.find? fun e => decide (e.head = h) && e.isFault with
    | some { kind := .fault cause, .. } => a.setHeadState h .heldFault (some (.thread cause))
    | _ =>
      if a.barred h then a.setHeadState h .heldNeedle none
      else if a.run.state = .running ∨ a.run.state = .stopping ∨ a.run.state = .changing then
        a.setHeadState h .heldOperator none
      else a.returnHead h

/-- A good answer to a unicast that is no ASSIGN is handled (R122). -/
def State.unicastAnswered (s : State) (t : Transaction) (w : RingWord) : State :=
  let h := t.request.head
  if t.headLost then s
  else if t.request.function = .poll ∧ t.roundRobin = false then s.recoveryAnswered h w
  else
    let a := (s.putRingRecord h { s.ringRecord h with misses := 0 }).confirmNeedle t w
    if (a.head h).state = .lost then a else a.superviseAnswer h w

/-- An answer frame arrives on an end (R120 to R122). One that is not a good answer to the unicast in flight is
discarded. -/
def State.ringAnswer (s : State) (e : RingEnd) (w : RingWord) : State :=
  match s.ring.flight with
  | none => s
  | some t =>
    if t.request.head = broadcastId ∨ goodAnswer t e w = false then s
    else
      let u := s.withRing { s.ring with flight := none }
      if t.discarded then u
      else if t.request.function = .assign then u.assignAnswered
      else u.unicastAnswered t w

/-- RING_ANSWER (R122). -/
def execRingAnswer (ringEnd : RingEnd) (frame : RingWord) (s : State) : Result :=
  .next (s.onEvent fun t => t.ringAnswer ringEnd frame)

/-! ### Misses (R123 to R125) -/

/-- A missed PRESSER or LAMP is placed again at the tail, unless one for the same head is queued already; a missed
round-robin POLL is dropped (R123). -/
def State.requeueMissed (s : State) (t : Transaction) : State :=
  let same (q : RingRequest) : Bool := decide (q.function = t.request.function) && decide (q.head = t.request.head)
  if t.request.function = .poll then s
  else if s.ring.requests.any same then s
  else s.withRing { s.ring with requests := s.ring.requests ++ [t.request] }

/-- A head's third miss (R125): its path is switched to end B on a FULL ring not yet switched, else it is given up. -/
def State.thirdMiss (s : State) (h : Nat) : State :=
  let r := s.ringRecord h
  if s.ring.state = .full ∧ r.switched = false then
    (s.putRingRecord h { path := some .b, switched := true, misses := 0 }).post .ringPath h (BitVec.ofNat 32 1)
  else
    let wasActive : Bool := decide ((s.head h).state = .active)
    (((s.putRingRecord h { r with misses := 0 }).loseHead h .ring).stopForLoss wasActive).settleChange

/-- A unicast that is no ASSIGN ends with a miss (R123 to R125). -/
def State.unicastMissed (s : State) (t : Transaction) : State :=
  let h := t.request.head
  if t.headLost then s
  else if t.request.function = .poll ∧ t.roundRobin = false then s.recoveryMiss h
  else
    let u := s.requeueMissed t
    let r := u.ringRecord h
    if 3 ≤ r.misses + 1 then u.thirdMiss h else u.putRingRecord h { r with misses := r.misses + 1 }

/-- The answer timeout of a unicast expires (R121, R123). -/
def State.ringTimeout (s : State) : State :=
  match s.ring.flight with
  | none => s
  | some t =>
    if t.request.head = broadcastId then s
    else
      let u := s.withRing { s.ring with flight := none }
      if t.discarded then u
      else if t.request.function = .assign then u.assignMissed
      else u.unicastMissed t

/-- RING_TIMEOUT (R123). -/
def execRingTimeout (s : State) : Result := .next (s.onEvent State.ringTimeout)

/-! ### The deadline of a change (R108) -/

/-- The deadline of a change expires (R108): the heads still unconfirmed are LOST with cause NEEDLE, in ascending
order, and the change completes. -/
def State.changeDeadline (s : State) : State :=
  match s.change with
  | none => s
  | some c =>
    if c.deadline = none then s
    else ((headNumbers.filter fun h => c.confirm.contains h).foldl (fun t h => t.loseHead h .needle) s).settleChange

/-- CHANGE_DEADLINE (R108). -/
def execChangeDeadline (s : State) : Result := .next (s.onEvent State.changeDeadline)

end Sys2Proof.Machine
end

