-- ==== Sys2Proof/Machine/HeadCommands.lean ====
section
/-! DEFINITION. The operator's commands on heads (chapters 7 and 9). -/

namespace Sys2Proof.Machine

open Sys2Proof

/-- The SKIP entry of a head that SET_INHIBIT holds, by the run state (R116). -/
def State.skipForInhibit (s : State) (h : Nat) : State :=
  match s.run.state with
  | .armed => s.skipOrPost h
  | .running => s.skipOrPost h
  | .stopping => s.skipOrPost h
  | .paused => s.skipOrPost h
  | .walking => s.withWalk (s.walk.map fun w => { w with deferredSkips := w.deferredSkips ++ [h] })
  | _ => s

/-- The tests and the effect of SET_INHIBIT (R116). A needle set with bit 0 set names a needle outside 1..15. -/
def State.setInhibit (s : State) (h : Nat) (needles : BitVec 16) : State :=
  if h = 0 ∨ 24 < h ∨ needles.getLsbD 0 then s.refuse .p .range
  else
    let t := s.putInhibitRow h needles
    let u := if t.barred h ∧ (t.head h).state = .active then (t.changeHead h .heldNeedle none).skipForInhibit h else t
    u.reply .p .ok []

/-- SET_INHIBIT (R116). -/
def execSetInhibit (head : Nat) (needles : BitVec 16) (s : State) : Result :=
  .next (s.onFrame .p fun t => t.setInhibit head needles)

/-- The tests and the effect of HEAD_OFF (R142). -/
def State.headOff (s : State) (h : Nat) : State :=
  if h = 0 ∨ 24 < h then s.refuse .p .range
  else if (s.head h).state ≠ .active then s.refuse .p .state
  else (s.changeHead h .heldOperator none).reply .p .ok []

/-- HEAD_OFF (R142). -/
def execHeadOff (head : Nat) (s : State) : Result := .next (s.onFrame .p fun t => t.headOff head)

/-- The FAULT entry of a head is removed from the Repair List (R143, R146). -/
def State.dropFault (s : State) (h : Nat) : State :=
  s.setRepairs (s.repairs.filter fun e => !(decide (e.head = h) && e.isFault))

/-- A held head comes back by HEAD_ON (R143); an emptied list may end a repair pass (R153). -/
def State.bringBack (s : State) (h : Nat) : State :=
  match (s.head h).state with
  | .heldFault =>
    let t := s.dropFault h
    let u := t.returnHead h
    if s.repairs = t.repairs then u else u.checkPassEmptied
  | _ => s.returnHead h

/-- The tests and the effect of HEAD_ON (R143). -/
def State.headOn (s : State) (h : Nat) : State :=
  if h = 0 ∨ 24 < h then s.refuse .p .range
  else if s.run.state = .running ∨ s.run.state = .stopping ∨ s.run.state = .changing then s.refuse .p .state
  else match (s.head h).state with
    | .absent => s.refuse .p .absent
    | .active => s.reply .p .ok []
    | .resting => s.refuse .p .state
    | .waiting => s.refuse .p .state
    | .lost => (s.offer { function := .poll, head := h, data := 0 }).reply .p .ok []
    | _ => if s.barred h then s.refuse .p .inhibited else (s.bringBack h).reply .p .ok []

/-- HEAD_ON (R143). -/
def execHeadOn (head : Nat) (s : State) : Result := .next (s.onFrame .p fun t => t.headOn head)

/-- One head in a reply: the fields of R132, its ring record and its inhibit row (R144, R167). -/
def State.headBytes (s : State) (h : Nat) : List Byte :=
  let r := s.head h
  let g := s.ringRecord h
  beBytes 1 r.state.code ++ optBytes 1 (r.cause.map HeadCause.code) ++ beBytes 1 r.needle ++ beBytes 1 (presserData r.presserUp) ++
    beBytes 1 r.noMotion ++ beBytes 1 r.tension ++ beBytes 3 r.lastMotion ++ flagByte r.bobbinWarned ++
    optBytes 3 r.joinIndex ++ optBytes 1 (g.path.map pathCode) ++ flagByte g.switched ++ beBytes 1 g.misses ++
    beBytes 2 (s.inhibitRow h).toNat

/-- The tests and the reply of READ_HEADS (R144). -/
def State.readHeads (s : State) (first count : Nat) : State :=
  if first = 0 ∨ 24 < first ∨ count = 0 ∨ 8 < count ∨ 24 < first + count - 1 then s.refuse .p .range
  else s.reply .p .ok (beBytes 1 s.ring.state.code ++ beBytes 1 count ++
    (List.range count).flatMap fun k => s.headBytes (first + k))

/-- READ_HEADS (R144). -/
def execReadHeads (first count : Nat) (s : State) : Result := .next (s.onFrame .p fun t => t.readHeads first count)

end Sys2Proof.Machine
end

