-- ==== Sys2Proof/Machine/PanelCommands.lean ====
section
/-! DEFINITION. Events, the class table, the time tag, the machine constants, status and identity, frame errors, the
chip-selects and the reset input (chapters 11 and 12). -/

namespace Sys2Proof.Machine

open Sys2Proof

/-! ### Events (R158 to R160) -/

/-- The test and the effect of READ_EVENTS (R158). -/
def State.readEvents (s : State) (n : Nat) : State :=
  if n = 0 ∨ 4 < n then s.refuse .p .range
  else
    let read := s.events.take n
    let left := s.events.drop n
    (s.withEvents left).reply .p .ok (beBytes 1 read.length ++ beBytes 1 left.length ++ read.flatMap eventBytes)

/-- READ_EVENTS (R158). -/
def execReadEvents (n : Nat) (s : State) : Result := .next (s.onFrame .p fun t => t.readEvents n)

/-- The test and the effect of SET_CLASS (R159). -/
def State.setClass (s : State) (kind : Nat) (log attend : Bool) : State :=
  if kind = 0 ∨ 24 < kind then s.refuse .p .range
  else (s.putClass kind { log := log, attend := attend }).reply .p .ok (flagByte log ++ flagByte attend)

/-- SET_CLASS (R159). -/
def execSetClass (kind : Nat) (log attend : Bool) (s : State) : Result :=
  .next (s.onFrame .p fun t => t.setClass kind log attend)

/-- The test and the effect of SET_TIME (R160). The counting of the unit starts afresh, which the next TIME_TAG_TICK
shows by when it comes. -/
def State.setTime (s : State) (value unit : Nat) : State :=
  if unit = 1 ∨ unit = 2 ∨ unit = 4 ∨ unit = 8 ∨ unit = 16 then
    (s.withTimeTag { value := value, unit := unit }).reply .p .ok []
  else s.refuse .p .range

/-- SET_TIME (R160). -/
def execSetTime (value unit : Nat) (s : State) : Result := .next (s.onFrame .p fun t => t.setTime value unit)

/-- A unit of the time tag ends (R160): the value rises by 1, or wraps to 0 and TIME_TAG_WRAP is posted. -/
def State.timeTagTick (s : State) : State :=
  if 65535 ≤ s.timeTag.value then
    (s.withTimeTag { s.timeTag with value := 0 }).post .timeTagWrap 0 (BitVec.ofNat 32 (paramField 5 0 s.timeTag.unit))
  else s.withTimeTag { s.timeTag with value := s.timeTag.value + 1 }

/-- TIME_TAG_TICK (R160). -/
def execTimeTagTick (s : State) : Result := .next (s.onEvent State.timeTagTick)

/-! ### Machine constants (R171) -/

/-- Whether the thresholds of a band table are strictly ascending (R49). -/
def ascending : List (Nat × Nat) → Bool
  | [] => true
  | [_] => true
  | a :: b :: rest => decide (a.1 < b.1) && ascending (b :: rest)

/-- Whether every constant of a frame lies in its range, and the thresholds are strictly ascending (R171, test 3). -/
def validConstants (c : ConstantsFrame) : Bool :=
  decide (1 ≤ c.nHeads ∧ c.nHeads ≤ 24) && decide (1 ≤ c.needles ∧ c.needles ≤ 15) &&
    decide (c.xmax ≤ 60000 ∧ c.xmin < c.xmax) && decide (c.ymax ≤ 60000 ∧ c.ymin < c.ymax) &&
    decide (40 ≤ c.maxStep ∧ c.maxStep ≤ 800) && decide (c.bands.length = 8) && ascending c.bands &&
    decide (100 ≤ c.startSpeed ∧ c.startSpeed ≤ 1200) && decide (c.ramp ≤ 15) &&
    decide (1 ≤ c.motionLimit ∧ c.motionLimit ≤ 15) && decide (1 ≤ c.tensionLimit ∧ c.tensionLimit ≤ 15) &&
    decide (c.backstep ≤ 255) && decide (c.faultPolicy ≤ 1) && decide (c.trimAtChange ≤ 1) &&
    decide (100 ≤ c.changeTime ∧ c.changeTime ≤ 2000)

/-- The constants record a valid frame writes, its band speeds clamped and floored (R49, R171). -/
def constantsOf (c : ConstantsFrame) : Constants :=
  { nHeads := c.nHeads, needles := c.needles, xmin := c.xmin, xmax := c.xmax, ymin := c.ymin, ymax := c.ymax,
    maxStep := c.maxStep, bands := c.bands.map fun b => (b.1, speedOf b.2), startSpeed := c.startSpeed, ramp := c.ramp,
    motionLimit := c.motionLimit, tensionLimit := c.tensionLimit, backstep := c.backstep,
    faultPolicy := if c.faultPolicy = 1 then .stopAll else .continueRun, trimAtChange := decide (c.trimAtChange = 1),
    changeTime := c.changeTime }

/-- The no-motion count and the tension count of every head become 0 (R171). -/
def State.zeroCounts (s : State) : State :=
  headNumbers.foldl (fun t h => t.putHead h { t.head h with noMotion := 0, tension := 0 }) s

/-- The tests and the effect of SET_CONSTANTS (R171). -/
def State.setConstants (s : State) (c : ConstantsFrame) : State :=
  if s.run.state ≠ .idle then s.refuse .p .state
  else if s.ring.state = .enumerating then s.refuse .p .busy
  else if validConstants c = false then s.refuse .p .invalid
  else ((s.withConstants (constantsOf c)).zeroCounts).reply .p .ok (constantsBytes (constantsOf c))

/-- SET_CONSTANTS (R171). -/
def execSetConstants (record : ConstantsFrame) (s : State) : Result := .next (s.onFrame .p fun t => t.setConstants record)

/-- READ_CONSTANTS (R171). -/
def execReadConstants (s : State) : Result := .next (s.onFrame .p fun t => t.reply .p .ok (constantsBytes t.constants))

/-! ### Status, errors and identity (R166, R172) -/

/-- READ_STATUS (R172). -/
def execReadStatus (port : Port) (s : State) : Result :=
  .next (s.onFrame port fun t => t.reply port .ok
    (beBytes 1 t.events.length ++ beBytes 1 t.queue.issued.length ++ beBytes 1 t.queue.prepared.length ++
      beBytes 1 t.ring.state.code))

/-- The flags of a port error record in a byte (R166). -/
def errorBits (e : PortErrors) : List Byte :=
  [BitVec.ofNat 8 ((if e.short then 1 else 0) + (if e.long then 2 else 0) + (if e.check then 4 else 0) +
    (if e.unknown then 8 else 0) + (if e.notPermitted then 16 else 0))]

/-- READ_PORT_ERRORS (R166): the flags as they stood, and the record of that port cleared. -/
def execReadPortErrors (port : Port) (s : State) : Result :=
  .next (s.onFrame port fun t =>
    (t.putPort port { t.port port with errors := .clear }).reply port .ok (errorBits (t.port port).errors))

/-- NOP (R172). -/
def execNop (port : Port) (s : State) : Result := .next (s.onFrame port fun t => t.reply port .ok [])

/-- IDENTIFY (R172): the part code 2415h and the revision 1. -/
def execIdentify (port : Port) (s : State) : Result :=
  .next (s.onFrame port fun t => t.reply port .ok (beBytes 2 0x2415 ++ beBytes 1 1))

/-- Sets the flag of a frame error (R166). -/
def PortErrors.raise (e : PortErrors) : FrameError → PortErrors
  | .unknown => { e with unknown := true }
  | .short => { e with short := true }
  | .check => { e with check := true }
  | .long => { e with long := true }
  | .notPermitted => { e with notPermitted := true }

/-- FRAME_ERROR (R166): the flag is set and the reply is FRAME with the sub-code. -/
def execFrameError (port : Port) (error : FrameError) (s : State) : Result :=
  .next (s.onFrame port fun t =>
    (t.putPort port { t.port port with errors := (t.port port).errors.raise error }).reply port .frame
      (beBytes 1 (frameSubCode error)))

/-! ### Chip-select (R164, R173) -/

/-- The NONE reply with the status of this moment (R164). -/
def State.noneReply (s : State) (port : Port) : Reply := { status := s.statusByte port, code := .none, payload := [] }

/-- The reply shifted out when a frame starts now (R164): the one the buffer holds, or NONE where it holds none. `early` is
yes for a frame that starts before the reply of the frame before it has been placed, which gets NONE too (log 6). -/
def State.outgoing (s : State) (port : Port) (early : Bool) : Reply :=
  match early, (s.port port).reply with
  | false, .held r => r
  | _, _ => s.noneReply port

/-- The first `n` bytes of a reply as they are shifted out; bytes after its CRC read 00h (R164). -/
def shiftOut (n : Nat) (bytes : List Byte) : List Byte := bytes.take n ++ List.replicate (n - bytes.length) 0#8

/-- A frame of `bytes` whole bytes starts on a port (R163, R164, R173). One of no whole byte has no effect of any kind.
While the part takes no frames the bytes shifted out read 00h and nothing is consumed; else the reply goes out, and one
still owed, or not yet placed (`early`), is lost. -/
def State.chipSelect (s : State) (port : Port) (bytes : Nat) (early : Bool) : State :=
  if bytes = 0 then s
  else if s.power = .ready then
    let t := s.loseReply port
    t.putPort port { t.port port with reply := .empty, frame := .begun, shiftedOut := shiftOut bytes (replyBytes (s.outgoing port early)) }
  else s.putPort port { s.port port with frame := .ignored, shiftedOut := List.replicate bytes 0#8 }

/-- CHIP_SELECT_ASSERT (R164). -/
def execChipSelectAssert (port : Port) (start : FrameStart) (s : State) : Result := .next (s.chipSelect port start.bytes start.early)

/-! ### Reset (R173) -/

/-- A port after reset: a frame in progress began before the part takes frames, and has no effect (R173). -/
def resetPort (p : PortState) : PortState :=
  { PortState.reset with frame := if p.frame = .closed then .closed else .ignored }

/-- RESET (R173): every operation is abandoned and every block holds its reset state. The waiting commands are the
world's and stand. -/
def execReset (s : State) : Result :=
  .next ((((State.reset.withPortP (resetPort s.portP)).withPortM (resetPort s.portM))).withPending s.pending)

/-- RESET_RELEASE (R173): the wait of 50 µs and the first time tag unit begin. -/
def execResetRelease (s : State) : Result := .next (if s.power = .held then s.withPower .waiting else s)

/-- FRAME_ACCEPT_READY (R173): the part begins taking frames. -/
def execFrameAcceptReady (s : State) : Result := .next (if s.power = .waiting then s.withPower .ready else s)

end Sys2Proof.Machine
end

