-- ==== Sys2Proof/Machine/Dispatch.lean ====
section
/-! DEFINITION. The dispatch: one arm for each command, each the one direct call of its meaning. -/

namespace Sys2Proof.Machine

open Sys2Proof

/-- The effect of a command on everything but the queue of waiting commands. -/
def exec (i : Instr) (s : State) : Host.Outcome State Fault Refusal :=
  match i with
  | .openDesign slot len => Sys2Proof.Machine.execOpenDesign slot len s
  | .writeRecords slot index records => Sys2Proof.Machine.execWriteRecords slot index records s
  | .readRecords slot index count => Sys2Proof.Machine.execReadRecords slot index count s
  | .portStoreAccessDone => Sys2Proof.Machine.execPortStoreAccessDone s
  | .requestPauseExpiry r => Sys2Proof.Machine.execRequestPauseExpiry r s
  | .setColours slot first entries => Sys2Proof.Machine.execSetColours slot first entries s
  | .readColours slot first count => Sys2Proof.Machine.execReadColours slot first count s
  | .readSlot slot => Sys2Proof.Machine.execReadSlot slot s
  | .closeDesign slot => Sys2Proof.Machine.execCloseDesign slot s
  | .closeScanReadDone => Sys2Proof.Machine.execCloseScanReadDone s
  | .delete slot => Sys2Proof.Machine.execDelete slot s
  | .keep slot on => Sys2Proof.Machine.execKeep slot on s
  | .clearFaultRecord => Sys2Proof.Machine.execClearFaultRecord s
  | .arm slot sx sy angle mirror ox oy nowX nowY => Sys2Proof.Machine.execArm slot sx sy angle mirror ox oy nowX nowY s
  | .traceReadDone => Sys2Proof.Machine.execTraceReadDone s
  | .start => Sys2Proof.Machine.execStart s
  | .stop port => Sys2Proof.Machine.execStop port s
  | .disarm => Sys2Proof.Machine.execDisarm s
  | .setSpeed value => Sys2Proof.Machine.execSetSpeed value s
  | .readRun => Sys2Proof.Machine.execReadRun s
  | .prepareTurn => Sys2Proof.Machine.execPrepareTurn s
  | .prepareReadDone => Sys2Proof.Machine.execPrepareReadDone s
  | .fetchMoves max => Sys2Proof.Machine.execFetchMoves max s
  | .done seq => Sys2Proof.Machine.execDone seq s
  | .stopped form seq => Sys2Proof.Machine.execStopped form seq s
  | .walk mode n => Sys2Proof.Machine.execWalk mode n s
  | .walkReadDone => Sys2Proof.Machine.execWalkReadDone s
  | .repair => Sys2Proof.Machine.execRepair s
  | .readRepairs first count => Sys2Proof.Machine.execReadRepairs first count s
  | .broadcastSent => Sys2Proof.Machine.execBroadcastSent s
  | .changeDeadline => Sys2Proof.Machine.execChangeDeadline s
  | .setInhibit head needles => Sys2Proof.Machine.execSetInhibit head needles s
  | .ringTransactionStart => Sys2Proof.Machine.execRingTransactionStart s
  | .ringAnswer ringEnd frame => Sys2Proof.Machine.execRingAnswer ringEnd frame s
  | .ringTimeout => Sys2Proof.Machine.execRingTimeout s
  | .ringStart => Sys2Proof.Machine.execRingStart s
  | .headOff head => Sys2Proof.Machine.execHeadOff head s
  | .headOn head => Sys2Proof.Machine.execHeadOn head s
  | .readHeads first count => Sys2Proof.Machine.execReadHeads first count s
  | .readEvents n => Sys2Proof.Machine.execReadEvents n s
  | .setClass kind log attend => Sys2Proof.Machine.execSetClass kind log attend s
  | .setTime value unit => Sys2Proof.Machine.execSetTime value unit s
  | .timeTagTick => Sys2Proof.Machine.execTimeTagTick s
  | .setConstants record => Sys2Proof.Machine.execSetConstants record s
  | .readConstants => Sys2Proof.Machine.execReadConstants s
  | .readStatus port => Sys2Proof.Machine.execReadStatus port s
  | .readPortErrors port => Sys2Proof.Machine.execReadPortErrors port s
  | .nop port => Sys2Proof.Machine.execNop port s
  | .identify port => Sys2Proof.Machine.execIdentify port s
  | .frameError port error => Sys2Proof.Machine.execFrameError port error s
  | .reset => Sys2Proof.Machine.execReset s
  | .frameAcceptReady => Sys2Proof.Machine.execFrameAcceptReady s
  | .storeBitChange chunk bits => Sys2Proof.Machine.execStoreBitChange chunk bits s
  | .chipSelectAssert port start => Sys2Proof.Machine.execChipSelectAssert port start s
  | .resetRelease => Sys2Proof.Machine.execResetRelease s

end Sys2Proof.Machine
end

