-- ==== Sys2Proof/Safety.lean ====
section
/-! DEFINITION. The terms of the claims: what a frame leaves in its port, that nothing else changed, and the laws of the
state that every step keeps. -/

namespace Sys2Proof.Machine

open Sys2Proof

/-! ### What a frame leaves behind -/

/-- In `t` the frame that began in `s` on `port` has ended and its reply stands in the reply buffer, with the status byte
of the state as it then stands; the rest of the port is as it was (R164). -/
def State.answers (s t : State) (port : Port) (code : ReplyCode) (payload : List Byte) : Prop :=
  t.port port =
    { s.port port with
      frame := .closed, reply := .held { status := t.statusByte port, code := code, payload := payload } }

/-- Nothing of the part changed but the interface of `port` and, for port P, the mark that an owed reply is lost. -/
def State.onlyPort (s t : State) (port : Port) : Prop := t = (s.loseReply port).putPort port (t.port port)

/-- The newest entries of the Event Queue are those of `l`, a list of kind, head and parameter, oldest first, where LOG is
set for each of their kinds (R155, R156). -/
def State.posted (t : State) (l : List (EventKind × Nat × BitVec 32)) : Prop :=
  (∀ x ∈ l, (t.classOf x.1.code).log = true) → l <:+ t.events.map fun e => (e.kind, e.head, e.param)

/-! ### Laws that every step keeps -/

/-- The Event Queue holds at most 64 entries (R155). -/
def State.eventsFit (s : State) : Prop := s.events.length ≤ 64

/-- The Move Queue holds at most 64 tokens, of which at most 32 are issued (R78). -/
def State.queueFits (s : State) : Prop :=
  s.queue.issued.length + s.queue.prepared.length ≤ 64 ∧ s.queue.issued.length ≤ 32

/-- The Design Store lists its chunks in canonical form: numbers strictly rising, and no BLANK chunk with an empty written
set among them. -/
def State.storeCanonical (s : State) : Prop := Table.wf (fun _ => Chunk.reset) s.store = true

/-- The store blocks that the block maps of slots 0 to 15 name, slot by slot. -/
def State.heldBlocks (s : State) : List Nat := (List.range 16).flatMap fun k => (s.slot k).blockMap

/-- Every store block is in the pool or in the block map of exactly one slot, the pool lists its blocks in rising order,
and an EMPTY slot has no blocks (R9, R18). -/
def State.blocksAccounted (s : State) : Prop :=
  (s.pool ++ s.heldBlocks).Perm (List.range 512) ∧ s.pool.Pairwise (· < ·) ∧
    ∀ k, (s.slot k).state = .empty → (s.slot k).blockMap = []

/-- No head whose machine needle is inhibited is ACTIVE (R115). -/
def State.noBarredActive (s : State) : Prop :=
  ∀ h ∈ headNumbers, (s.head h).state = .active → s.barred h = false

/-- The slot named in the run record is the one slot with its armed flag set, it is READY or DAMAGED, no slot is armed
in IDLE, and the slot of a close scan is CLOSING (R11, R18, R32). -/
def State.armedOnce (s : State) : Prop :=
  (∀ k, (s.slot k).armed = true ↔ s.run.armedSlot = some k) ∧
    (∀ k, (s.slot k).armed = true → (s.slot k).state = .ready ∨ (s.slot k).state = .damaged) ∧
    (s.run.state = .idle → s.run.armedSlot = none) ∧
    (∀ c, s.scan = some c → (s.slot c.slot).state = .closing)

/-- Every machine constant lies in its range, and every band speed is a multiple of 10 in 100..1200 (R49, R171). -/
def Constants.inRange (c : Constants) : Prop :=
  1 ≤ c.nHeads ∧ c.nHeads ≤ 24 ∧ 1 ≤ c.needles ∧ c.needles ≤ 15 ∧ c.xmin < c.xmax ∧ c.xmax ≤ 60000 ∧
    c.ymin < c.ymax ∧ c.ymax ≤ 60000 ∧ 40 ≤ c.maxStep ∧ c.maxStep ≤ 800 ∧ c.bands.length = 8 ∧
    c.bands.Pairwise (fun a b => a.1 < b.1) ∧ (∀ b ∈ c.bands, 100 ≤ b.2 ∧ b.2 ≤ 1200 ∧ b.2 % 10 = 0) ∧
    100 ≤ c.startSpeed ∧ c.startSpeed ≤ 1200 ∧ c.ramp ≤ 15 ∧ 1 ≤ c.motionLimit ∧ c.motionLimit ≤ 15 ∧
    1 ≤ c.tensionLimit ∧ c.tensionLimit ≤ 15 ∧ c.backstep ≤ 255 ∧ 100 ≤ c.changeTime ∧ c.changeTime ≤ 2000

/-- The constants are in range, no count of a head stands above K or Q, and the tension count of an ACTIVE head stands
below Q (R132, R171). -/
def State.countsBounded (s : State) : Prop :=
  s.constants.inRange ∧
    ∀ h ∈ headNumbers, (s.head h).noMotion ≤ s.constants.motionLimit ∧ (s.head h).tension ≤ s.constants.tensionLimit ∧
      ((s.head h).state = .active → (s.head h).tension < s.constants.tensionLimit)

/-- The Repair List stands in the order of R145 and holds at most 24 SKIP entries. -/
def State.repairsOrdered (s : State) : Prop :=
  s.repairs.Pairwise (fun a b => a.before b = true) ∧ (s.repairs.filter (·.isSkip)).length ≤ 24

/-- A change record is present exactly while the run is CHANGING, a walk record exactly while it is WALKING, and an arm
trace exactly while it is ARMING (R55, R93, R104). -/
def State.operationsMatch (s : State) : Prop :=
  (s.change.isSome = true ↔ s.run.state = .changing) ∧ (s.walk.isSome = true ↔ s.run.state = .walking) ∧
    (s.trace.isSome = true ↔ s.run.state = .arming)

/-- No head has two FAULT entries, and each is of a head 1 to 24; in a MAIN pass the head of one is HELD_FAULT or LOST; a run
IDLE or ARMING is in a MAIN pass, and a walk of REPAIR in a REPAIR pass; the ring speaks to no head but 1 to 24; and while an
enumeration lasts the run is IDLE, no head is present and there is no FAULT entry (R128, R138, R145, R146, R148). -/
def State.faultsSingle (s : State) : Prop :=
  (∀ h, (s.repairs.filter fun e => decide (e.head = h) && e.isFault).length ≤ 1) ∧
    (∀ e ∈ s.repairs, e.isFault = true → e.head ∈ headNumbers) ∧
    (s.run.pass = .main → ∀ e ∈ s.repairs, e.isFault = true →
      (s.head e.head).state = .heldFault ∨ (s.head e.head).state = .lost) ∧
    (s.run.state = .idle ∨ s.run.state = .arming → s.run.pass = .main) ∧
    (∀ w, s.walk = some w → w.requester = .repair → s.run.pass = .repair) ∧
    (∀ r ∈ s.ring.requests, r.head ∈ headNumbers ∨ r.head = broadcastId) ∧
    (∀ f, s.ring.flight = some f → f.request.function ≠ .assign → f.request.head ∈ headNumbers ∨ f.request.head = broadcastId) ∧
    (s.ring.enumeration.isSome = true →
      s.ring.state = .enumerating ∧ s.run.state = .idle ∧ (∀ e ∈ s.repairs, e.isFault = false) ∧
        (∀ h ∈ headNumbers, s.present h = false) ∧
        ∀ f, s.ring.flight = some f → f.request.function = .assign ∨ f.discarded = true)

/-! ### Token bounds (R53, R76) -/

/-- What R76 says of a token in the queue: a STEP or TRAVEL moves within ±M on each axis under a ceiling that is a multiple
of 10 in 100..1200; a TRIM or HALT has no move and no ceiling, and only a HALT has a reason. -/
def Token.lawful (maxStep : Nat) (t : Token) : Prop :=
  match t.kind with
  | .step => t.reason = none ∧ t.mx.natAbs ≤ maxStep ∧ t.my.natAbs ≤ maxStep ∧
      ∃ c, t.ceiling = some c ∧ 100 ≤ c ∧ c ≤ 1200 ∧ c % 10 = 0
  | .travel => t.reason = none ∧ t.mx.natAbs ≤ maxStep ∧ t.my.natAbs ≤ maxStep ∧
      ∃ c, t.ceiling = some c ∧ 100 ≤ c ∧ c ≤ 1200 ∧ c % 10 = 0
  | .trim => t.reason = none ∧ t.mx = 0 ∧ t.my = 0 ∧ t.ceiling = none
  | .halt => t.reason.isSome = true ∧ t.mx = 0 ∧ t.my = 0 ∧ t.ceiling = none

/-- Every token of the queue is lawful; a split in progress has the pieces R46 gives it, some of them still to come, and
the prepared frame position stands at its last sub-target; and in IDLE and ARMING there is neither token nor split. -/
def State.tokensLawful (s : State) : Prop :=
  (∀ t ∈ s.queue.issued ++ s.queue.prepared, t.lawful s.constants.maxStep) ∧
    (∀ sp, s.seq.split = some sp →
      sp.pieces = pieceCount s.constants.maxStep (sp.target.minus sp.start) ∧ sp.prepared < sp.pieces ∧
        s.seq.frame = subTarget sp.start sp.target sp.pieces sp.prepared) ∧
    (s.run.state = .idle ∨ s.run.state = .arming →
      s.queue.issued = [] ∧ s.queue.prepared = [] ∧ s.seq.split = none)

/-- The sum of the deltas of the STITCH and JUMP records of a list, from a design position on (3.1). -/
def positionOf (start : Point) (rs : List StitchRecord) : Point := rs.foldl positionAfter start

/-! ### Reading single positions -/

/-- What the store holds at record index `i` of a design with block map `map` (R20). -/
def State.cellAt (s : State) (map : List Nat) (i : Nat) : Cell := (s.chunk (chunkOf map i)).cell (i % 4)

/-- The number of the chunk that a request for record index `i` covers, is one of those of `count` indices from `index`
on. -/
def covers (map : List Nat) (index count n : Nat) : Prop := ∃ j, j < count ∧ n = chunkOf map (index + j)

end Sys2Proof.Machine
end

