-- ==== Sys2Proof/Certificates/Slice0/Obligations.lean ====
section
/-! DEFINITION. The statements for the provers. -/

open Sys2Proof Sys2Proof.Machine

/-! ### The step, the queue, reset (R173) -/

/-- A step carries out the command at the front of the queue on the state with the rest of the queue; on an empty queue it
leaves the state as it is, which is the model's choice (log 13). -/
def Obligations.StepRunsFrontOrIdles : Prop :=
  (∀ (c : Instr) (rest : List Instr) (s : State), s.pending = c :: rest → step s = exec c (s.withPending rest)) ∧
    ∀ s : State, s.pending = [] → step s = .next s

/-- Every command is carried out in every state: no step stops, and no command touches the queue of those that wait. That
every event row is carried out whatever the state is the model's choice (log 15), and that RESET leaves the waiting commands
is its reading (log 14). -/
def Obligations.EveryCommandCompletes : Prop :=
  ∀ (c : Instr) (s : State), ∃ t, exec c s = .next t ∧ t.pending = s.pending

/-- A frame of whole bytes that starts while the part takes frames shifts out the reply that stands in the buffer (status
byte, code, payload and CRC-8), cut to its own length or followed by 00h, and consumes it; a buffer that holds no reply yet,
or a frame that starts before the reply of the frame before it is placed, gives NONE with the status of that moment. One that
starts too early after a reset shifts out 00h and consumes nothing, and one of no whole byte has no effect. A frame that ends
while the part takes no frames, or that began before it did, has no effect but that it ends. -/
def Obligations.FrameStartShiftsOutReply : Prop :=
  (∀ (s : State) (port : Port) (bytes : Nat) (early : Bool),
    (bytes = 0 → exec (.chipSelectAssert port ⟨bytes, early⟩) s = .next s) ∧
    (0 < bytes → s.power = .ready → ∃ t, exec (.chipSelectAssert port ⟨bytes, early⟩) s = .next t ∧ s.onlyPort t port ∧
      t.port port = { s.port port with
        reply := .empty, frame := .begun,
        shiftedOut :=
          let r : Reply := match early, (s.port port).reply with
            | false, .held r => r
            | _, _ => { status := s.statusByte port, code := .none, payload := [] }
          let body := r.status :: BitVec.ofNat 8 r.code.code :: r.payload
          let out := body ++ [crc8 body]
          out.take bytes ++ List.replicate (bytes - out.length) 0 }) ∧
    (0 < bytes → s.power ≠ .ready →
      exec (.chipSelectAssert port ⟨bytes, early⟩) s =
        .next (s.putPort port { s.port port with frame := .ignored, shiftedOut := List.replicate bytes 0 }))) ∧
  ∀ (c : Instr) (s : State),
    (frameContent c).isSome = true ∨ (∃ port e, c = .frameError port e) →
    (s.power ≠ .ready ∨ (s.port (framePort c)).frame = .ignored) →
    exec c s = .next (s.putPort (framePort c) { s.port (framePort c) with frame := .closed })

/-- RESET puts every block in its reset state whatever stood before, and clears both ports; that a frame then in progress
is ignored, and that the waiting commands stand, is the model's reading (log 14). RESET_RELEASE and FRAME_ACCEPT_READY lead
on to the part taking frames; that either leaves the state as it is where it cannot happen is the model's choice (log 15). -/
def Obligations.ResetClearsEverything : Prop :=
  (∀ s : State, ∃ t, exec .reset s = .next t ∧
    t = { State.reset with pending := s.pending, portP := t.portP, portM := t.portM } ∧
    ∀ port : Port, (t.port port).reply = .noneAfterReset ∧ (t.port port).errors = .clear ∧ (t.port port).shiftedOut = [] ∧
      (t.port port).frame = if (s.port port).frame = .closed then .closed else .ignored) ∧
  (∀ s : State, s.power = .held → exec .resetRelease s = .next { s with power := .waiting }) ∧
  (∀ s : State, s.power ≠ .held → exec .resetRelease s = .next s) ∧
  (∀ s : State, s.power = .waiting → exec .frameAcceptReady s = .next { s with power := .ready }) ∧
  (∀ s : State, s.power ≠ .waiting → exec .frameAcceptReady s = .next s) ∧
  State.reset.pool = List.range 512 ∧ (∀ n, State.reset.chunk n = ⟨.blank, .blank, .blank, .blank, []⟩) ∧
  (∀ k, (State.reset.slot k).state = .empty ∧ (State.reset.slot k).length = 0 ∧ (State.reset.slot k).keep = false ∧
    (State.reset.slot k).armed = false ∧ (State.reset.slot k).blockMap = [] ∧ ∀ b, (State.reset.slot k).colour b = none) ∧
  State.reset.faultRecord.frozen = false ∧ State.reset.run.state = .idle ∧ State.reset.run.armedSlot = none ∧
  State.reset.run.needle = 0 ∧ State.reset.run.speed = 600 ∧ State.reset.run.stopReason = .none ∧
  State.reset.queue.nextSeq = 0 ∧ State.reset.queue.lastDone = none ∧ State.reset.ring.state = .down ∧
  (∀ h, (State.reset.head h).state = .absent ∧ (State.reset.head h).cause = none ∧ State.reset.inhibitRow h = 0 ∧
    (State.reset.ringRecord h).path = none) ∧
  State.reset.repairs = [] ∧ State.reset.events = [] ∧ State.reset.timeTag = { value := 0, unit := 1 } ∧
  State.reset.attentionP = false ∧ State.reset.attentionM = false

/-! ### Frames (R163, R166, R167) -/

/-- Reading the frame of a command gives that command, for every command that has a frame, with every operand at every
value its field admits. -/
def Obligations.DecodeOfEncodedFrame : Prop :=
  ∀ (i : Instr) (f : List Byte), i.wellFormed = true → encodeFrame i = some f → decodeFrame (framePort i) f = some i

/-- The tests of a frame in their order: a byte that is no command, an end before the CRC byte, a CRC byte that does not
agree, a byte after it that is not 00h, a port the command is not permitted on. A frame error sets its flag in the record of
its port and is answered FRAME with its sub-code, and READ_PORT_ERRORS reports the flags of its own port, one bit each, and
clears them; neither does anything else. -/
def Obligations.FrameErrorsInOrder : Prop :=
  (∀ (port : Port) (c : Byte) (rest : List Byte), isCommand c.toNat = false →
    decodeFrame port (c :: rest) = some (.frameError port .unknown)) ∧
  (∀ (i : Instr) (c : Byte) (b : List Byte), i.wellFormed = true → frameContent i = some (c, b) → ∀ port : Port,
    (∀ k, k ≤ b.length → decodeFrame port (c :: b.take k) = some (.frameError port .short)) ∧
    (∀ x fill, x ≠ crc8 (c :: b) → decodeFrame port (c :: (b ++ x :: fill)) = some (.frameError port .check)) ∧
    (∀ fill, (∃ y ∈ fill, y ≠ 0) →
      decodeFrame port (c :: (b ++ crc8 (c :: b) :: fill)) = some (.frameError port .long)) ∧
    (∀ n, permitted port c.toNat = false →
      decodeFrame port (c :: (b ++ crc8 (c :: b) :: List.replicate n 0)) = some (.frameError port .notPermitted)) ∧
    (∀ n, port = framePort i → decodeFrame port (c :: (b ++ crc8 (c :: b) :: List.replicate n 0)) = some i)) ∧
  ∀ (s : State) (port : Port), s.takesFrame port = true →
    (∀ e, ∃ t, exec (.frameError port e) s = .next t ∧ s.onlyPort t port ∧
      (t.port port).reply = .held { status := t.statusByte port, code := .frame, payload :=
        [match e with | .short => 1 | .long => 2 | .check => 3 | .unknown => 4 | .notPermitted => 5] } ∧
      (t.port port).errors = (match e with
        | .short => { (s.port port).errors with short := true }
        | .long => { (s.port port).errors with long := true }
        | .check => { (s.port port).errors with check := true }
        | .unknown => { (s.port port).errors with unknown := true }
        | .notPermitted => { (s.port port).errors with notPermitted := true }) ∧
      (t.port port).frame = .closed) ∧
    ∃ t b, exec (.readPortErrors port) s = .next t ∧ s.onlyPort t port ∧
      (t.port port).reply = .held { status := t.statusByte port, code := .ok, payload := [b] } ∧
      (t.port port).errors = .clear ∧ (t.port port).frame = .closed ∧ b.toNat < 32 ∧
      b.getLsbD 0 = (s.port port).errors.short ∧ b.getLsbD 1 = (s.port port).errors.long ∧
      b.getLsbD 2 = (s.port port).errors.check ∧ b.getLsbD 3 = (s.port port).errors.unknown ∧
      b.getLsbD 4 = (s.port port).errors.notPermitted

/-- What goes out on the ports. A field of w bytes carries the bytes of its number, the most significant first, two's
complement where it is signed; a field that may be absent is preceded by 00h or 01h. Stitch records, move tokens, event
entries and the constants record are laid out byte by byte; the status byte carries the run state in bits 3-0 and its four
upper bits; the named values have the codes of their lists. That a flag takes one byte, 01h or 00h, is the model's reading
(log 12). -/
def Obligations.WireLayouts : Prop :=
  (∀ (w n : Nat), beBytes w n = (List.range w).reverse.map fun k => BitVec.ofNat 8 (n / 256 ^ k)) ∧
  (∀ (w : Nat) (z : Int), beSigned w z = (List.range w).reverse.map fun k => BitVec.ofInt 8 (z / 256 ^ k)) ∧
  (∀ (w n : Nat), optBytes w (some n) = 0 :: beBytes w n ∧ optBytes w none = 1 :: List.replicate w 0) ∧
  (flagByte true = [1] ∧ flagByte false = [0]) ∧
  (∀ r : StitchRecord, recordBytes r =
    [BitVec.ofNat 8 ((match r.kind with
        | .stitch => 0x10 | .jump => 0x20 | .trim => 0x30 | .colour => 0x40 | .pause => 0x50 | .endRecord => 0x60) +
      if r.slow = true then 1 else 0), 0] ++ beSigned 2 r.dx ++ beSigned 2 r.dy) ∧
  (∀ k : Token, tokenBytes k =
    beBytes 2 k.seq ++
      [BitVec.ofNat 8 ((match k.kind with | .step => 0x10 | .travel => 0x20 | .trim => 0x30 | .halt => 0x40) +
        match k.reason with | none => 0 | some .colour => 1 | some .pause => 2 | some .endRecord => 3 | some .join => 4)] ++
      beSigned 2 k.mx ++ beSigned 2 k.my ++ [BitVec.ofNat 8 (k.ceiling.getD 0 / 10)] ++ beBytes 3 k.index) ∧
  (∀ e : EventEntry, eventBytes e =
    [BitVec.ofNat 8 e.kind.code, BitVec.ofNat 8 ((if e.gap = true then 0x80 else 0) + e.head)] ++ beBytes 4 e.param.toNat ++
      beBytes 3 e.cursor ++ beBytes 2 e.time ++
      (match e.target with | some g => beSigned 4 g.x ++ beSigned 4 g.y | none => List.replicate 8 0)) ∧
  (∀ c : Constants, constantsBytes c =
    [BitVec.ofNat 8 c.nHeads, BitVec.ofNat 8 c.needles] ++ beBytes 2 c.xmin ++ beBytes 2 c.xmax ++ beBytes 2 c.ymin ++
      beBytes 2 c.ymax ++ beBytes 2 c.maxStep ++ (c.bands.flatMap fun b => beBytes 2 b.1 ++ beBytes 2 b.2) ++
      beBytes 2 c.startSpeed ++ [BitVec.ofNat 8 c.ramp, BitVec.ofNat 8 c.motionLimit, BitVec.ofNat 8 c.tensionLimit,
        BitVec.ofNat 8 c.backstep, if c.faultPolicy = .stopAll then 1 else 0, if c.trimAtChange = true then 1 else 0] ++
      beBytes 2 c.changeTime) ∧
  (∀ (s : State) (port : Port),
    let b := s.statusByte port
    let errors := (s.port port).errors
    b.toNat % 16 = s.run.state.code ∧ b.getLsbD 7 = false ∧
    b.getLsbD 6 = (match port with | .p => s.attentionP | .m => decide (s.run.state = .stopping)) ∧
    b.getLsbD 5 = (match port with
      | .p => s.run.outstanding
      | .m => decide (s.run.state = .running ∧ s.queue.prepared.length < 16)) ∧
    b.getLsbD 4 = (errors.short || errors.long || errors.check || errors.unknown || errors.notPermitted)) ∧
  [RunState.idle, .arming, .armed, .running, .stopping, .paused, .changing, .walking, .finished, .fault].map RunState.code =
    List.range 10 ∧
  [ReplyCode.ok, .accepted, .none, .busy, .state, .range, .absent, .length, .readOnly, .inUse, .noSpace, .kept, .locked,
    .sequence, .incomplete, .noHeads, .inhibited, .invalid, .uncorrectable, .frame].map ReplyCode.code = List.range 20 ∧
  [EventKind.threadBreak, .tensionFault, .bobbinLow, .headLost, .headSwitch, .ringPath, .ringDone, .changeDone, .colourStop,
    .pauseRecord, .designEnd, .repairDone, .runStopped, .queueStarved, .noHeads, .repairListFull, .memoryCorrected,
    .memoryFault, .closeDone, .closeFailed, .armDone, .armFailed, .walkDone, .timeTagWrap].map EventKind.code =
    (List.range 24).map (· + 1) ∧
  [StopReason.none, .panel, .motionRequest, .motion, .fault, .headLost, .memory, .repairDone, .pause, .endOfDesign,
    .colourStop, .noHeads, .repairListFull].map StopReason.code = List.range 13 ∧
  [SlotState.empty, .loading, .closing, .ready, .damaged].map SlotState.code = List.range 5 ∧
  [HeadState.absent, .active, .heldFault, .heldNeedle, .heldOperator, .resting, .waiting, .lost].map HeadState.code =
    List.range 8 ∧
  [LossCause.ring, .needle, .board, .absentAtStart].map LossCause.code = List.range 4 ∧
  [ThreadFault.breakFault, .tension].map ThreadFault.code = List.range 2 ∧
  [RingState.down, .enumerating, .full, .split].map RingState.code = List.range 4 ∧
  [ChangeAction.auto, .stop, .resume, .pause].map ChangeAction.code = List.range 4 ∧
  [PassKind.main, .repair].map PassKind.code = List.range 2 ∧
  [FaultSource.portP, .sequencer, .trace, .walk, .closeScan].map FaultSource.code = List.range 5 ∧
  [FaultCommand.writeRecords, .readRecords, .closeDesign, .arm, .walk, .repair].map FaultCommand.code =
    [0x11, 0x12, 0x16, 0x20, 0x25, 0x26]

/-- The commands that only read: each is answered OK with the fields its rule names, in their order, and changes nothing but
the port it came on; READ_COLOURS, READ_REPAIRS and READ_HEADS within the ranges their rules give. The widths, flags and
codes of the fields of READ_SLOT, READ_RUN, READ_COLOURS, READ_REPAIRS and READ_HEADS are the model's reading (log 12).
Outside those ranges, and READ_SLOT above slot 15, they are refused with RANGE, and READ_COLOURS of an EMPTY slot with
ABSENT, and change nothing. -/
def Obligations.ReadCommandsChangeNothing : Prop :=
  ∀ (s : State) (port : Port),
    (s.takesFrame port = true →
      (∃ t, exec (.nop port) s = .next t ∧ s.onlyPort t port ∧ s.answers t port .ok []) ∧
      (∃ t, exec (.identify port) s = .next t ∧ s.onlyPort t port ∧ s.answers t port .ok [0x24, 0x15, 0x01]) ∧
      (∃ t, exec (.readStatus port) s = .next t ∧ s.onlyPort t port ∧
        s.answers t port .ok [BitVec.ofNat 8 s.events.length, BitVec.ofNat 8 s.queue.issued.length,
          BitVec.ofNat 8 s.queue.prepared.length,
          match s.ring.state with | .down => 0 | .enumerating => 1 | .full => 2 | .split => 3])) ∧
    (s.takesFrame .p = true →
      (∃ t, exec .readConstants s = .next t ∧ s.onlyPort t .p ∧ s.answers t .p .ok (constantsBytes s.constants)) ∧
      (∃ t, exec .readRun s = .next t ∧ s.onlyPort t .p ∧
        let r := s.run
        let f := r.transform
        s.answers t .p .ok
          (beBytes 1 r.state.code ++ optBytes 1 r.armedSlot ++ beBytes 2 f.sx ++ beBytes 2 f.sy ++ beBytes 2 f.angle ++
            flagByte f.mirror ++ beSigned 2 f.ox ++ beSigned 2 f.oy ++ beSigned 2 f.sine ++ beSigned 2 f.cosine ++
            beBytes 1 r.pass.code ++ beBytes 3 r.cursor ++ beSigned 3 r.design.x ++ beSigned 3 r.design.y ++
            beSigned 2 r.frame.x ++ beSigned 2 r.frame.y ++ beBytes 1 r.colourBlock ++ beBytes 1 r.needle ++
            beBytes 2 r.speed ++ optBytes 1 (if r.stopReason = .none then none else some r.stopReason.code) ++
            flagByte r.outstanding ++ optBytes 2 r.faultChunk ++ beBytes 3 s.seq.cursor ++ flagByte s.seq.haltFlag ++
            beBytes 1 s.queue.issued.length ++ beBytes 1 s.queue.prepared.length ++ optBytes 1 (s.change.map (·.target)) ++
            optBytes 1 (s.change.map (·.action.code)) ++ optBytes 1 (s.change.map (·.confirm.length)))) ∧
      (∀ k, k ≤ 15 → ∃ t, exec (.readSlot k) s = .next t ∧ s.onlyPort t .p ∧
        let r := s.slot k
        s.answers t .p .ok
          (beBytes 1 r.state.code ++ beBytes 3 r.length ++ beBytes 2 r.blockMap.length ++ flagByte r.keep ++
            flagByte r.armed ++ beBytes 1 r.colourCount ++ beBytes 3 r.stitchCount ++ beSigned 3 r.extents.xmin ++
            beSigned 3 r.extents.xmax ++ beSigned 3 r.extents.ymin ++ beSigned 3 r.extents.ymax ++
            beBytes 2 s.pool.length ++ flagByte s.faultRecord.frozen)) ∧
      (∀ k first count, k ≤ 15 → 1 ≤ count → count ≤ 16 → first + count ≤ 128 → (s.slot k).state ≠ .empty →
        ∃ t, exec (.readColours k first count) s = .next t ∧ s.onlyPort t .p ∧
          s.answers t .p .ok
            (BitVec.ofNat 8 count :: (List.range count).flatMap fun j =>
              match (s.slot k).colour (first + j) with
              | some e => [0, BitVec.ofNat 8 e.needle, match e.action with | .auto => 0 | .stop => 1]
              | none => [1, 0, 0])) ∧
      (∀ first count, first ≤ 47 → 1 ≤ count → count ≤ 8 →
        ∃ t, exec (.readRepairs first count) s = .next t ∧ s.onlyPort t .p ∧
          s.answers t .p .ok (BitVec.ofNat 8 s.repairs.length :: BitVec.ofNat 8 count ::
            (List.range count).flatMap fun j => match s.repairs[first + j]? with
              | some e => 0 :: (beBytes 1 e.head ++
                  (match e.kind with | .fault c => 0 :: optBytes 1 (some c.code) | .skip => 1 :: optBytes 1 none) ++
                  beBytes 3 e.fromIndex ++ optBytes 1 e.toBlock ++ optBytes 3 e.toIndex ++ optBytes 1 e.deferred ++
                  flagByte e.sewing)
              | none => 1 :: List.replicate 16 0)) ∧
      (∀ first count, 1 ≤ first → 1 ≤ count → count ≤ 8 → first + count ≤ 25 →
        ∃ t, exec (.readHeads first count) s = .next t ∧ s.onlyPort t .p ∧
          s.answers t .p .ok (BitVec.ofNat 8 s.ring.state.code :: BitVec.ofNat 8 count ::
            (List.range count).flatMap fun j =>
              let r := s.head (first + j)
              let g := s.ringRecord (first + j)
              beBytes 1 r.state.code ++
                optBytes 1 (r.cause.map fun c => match c with | .thread f => f.code | .loss l => l.code) ++
                beBytes 1 r.needle ++ [if r.presserUp = true then 1 else 0] ++ beBytes 1 r.noMotion ++
                beBytes 1 r.tension ++ beBytes 3 r.lastMotion ++ flagByte r.bobbinWarned ++ optBytes 3 r.joinIndex ++
                optBytes 1 (g.path.map fun e => match e with | .a => 0 | .b => 1) ++ flagByte g.switched ++
                beBytes 1 g.misses ++ beBytes 2 (s.inhibitRow (first + j)).toNat)) ∧
      (∀ k, 15 < k → ∃ t, exec (.readSlot k) s = .next t ∧ s.onlyPort t .p ∧ s.answers t .p .range []) ∧
      (∀ k first count, 15 < k ∨ count = 0 ∨ 16 < count ∨ 128 < first + count →
        ∃ t, exec (.readColours k first count) s = .next t ∧ s.onlyPort t .p ∧ s.answers t .p .range []) ∧
      (∀ k first count, k ≤ 15 → 1 ≤ count → count ≤ 16 → first + count ≤ 128 → (s.slot k).state = .empty →
        ∃ t, exec (.readColours k first count) s = .next t ∧ s.onlyPort t .p ∧ s.answers t .p .absent []) ∧
      (∀ first count, 47 < first ∨ count = 0 ∨ 8 < count →
        ∃ t, exec (.readRepairs first count) s = .next t ∧ s.onlyPort t .p ∧ s.answers t .p .range []) ∧
      (∀ first count, first = 0 ∨ count = 0 ∨ 8 < count ∨ 25 < first + count →
        ∃ t, exec (.readHeads first count) s = .next t ∧ s.onlyPort t .p ∧ s.answers t .p .range []))

/-! ### Loading (chapters 1 and 2) -/

/-- OPEN_DESIGN is tested in its order and, when taken, gives an EMPTY slot the lowest free blocks, whose chunks become
BLANK with the padding of the last record's chunk; nothing else changes. -/
def Obligations.OpenDesignTakesLowestFreeBlocks : Prop :=
  ∀ (s : State) (k len : Nat), s.takesFrame .p = true → ∃ t, exec (.openDesign k len) s = .next t ∧
    if 15 < k then s.onlyPort t .p ∧ s.answers t .p .range []
    else if (s.slot k).state ≠ .empty then s.onlyPort t .p ∧ s.answers t .p .state []
    else if len < 1 ∨ 131072 < len then s.onlyPort t .p ∧ s.answers t .p .range []
    else if s.pool.length < (len + 511) / 512 then s.onlyPort t .p ∧ s.answers t .p .noSpace []
    else
      let blocks := s.pool.take ((len + 511) / 512)
      s.answers t .p .ok [] ∧
      (s.pool.Pairwise (· < ·) → blocks.Pairwise (· < ·) ∧ ∀ b ∈ blocks, ∀ c ∈ t.pool, b < c) ∧
      t = { s.loseReply .p with portP := t.portP, slots := t.slots, pool := t.pool, store := t.store } ∧
      t.slot k = { state := .loading, length := len, blockMap := blocks, keep := false, armed := false, colours := [],
                   colourCount := 0, stitchCount := 0, extents := ⟨0, 0, 0, 0⟩ } ∧
      (∀ j, j ≠ k → t.slot j = s.slot j) ∧ t.pool = s.pool.drop ((len + 511) / 512) ∧
      (∀ n, n / 128 ∉ blocks → t.chunk n = s.chunk n) ∧
      (∀ n, n / 128 ∈ blocks → (t.chunk n).changed = [] ∧ (t.chunk n).state = .blank ∧ ∀ p, p < 4 →
        (t.chunk n).cell p = if n = chunkOf blocks (len - 1) ∧ (len - 1) % 4 < p then .padding else .blank)

/-- A WRITE_RECORDS or READ_RECORDS frame that passes its tests becomes one request to the store for the chunks of its
indices and owes its reply; it changes nothing else. Before the access checks a slot above 15 or a count outside 1..16 is
refused with RANGE, and then a write to a CLOSING slot with BUSY; after them a write with a record that cannot be stored is
refused whole with RANGE; none of these is recorded, and nothing is written. The path goes to it at once when it is free and
no internal request waits. A record is handed over with SLOW only on a STITCH, with zero deltas but on a STITCH or JUMP, and
not at all where its kind is unknown or a STITCH or JUMP has a delta outside −1,270..+1,270. When the pause of an internal
requester ends it is free to ask again, and asks at once for the chunk its operation wants: granted when the path is free
and no other request waits, else waiting. -/
def Obligations.RecordFrameBecomesOneRequest : Prop :=
  (∀ (s : State) (k index : Nat), s.takesFrame .p = true → k ≤ 15 → s.arbiter.portP = none →
      (∀ records rs, 1 ≤ records.length → records.length ≤ 16 → (s.slot k).state = .loading →
        index + records.length ≤ (s.slot k).length → storedRecords records = some rs →
        ∃ t, exec (.writeRecords k index records) s = .next t ∧
          t = { s with portP := t.portP, arbiter := t.arbiter } ∧
          t.portP = { s.portP with reply := .empty, frame := .closed } ∧
          t.arbiter.portP = some ⟨k, index, records.length, spansOf (s.slot k).blockMap index records.length, some rs, false⟩ ∧
          (s.arbiter.holder ≠ none → t.arbiter.holder = s.arbiter.holder) ∧
          (s.arbiter.holder = none → (∀ r x, s.arbiter.request r ≠ .waiting x) → t.arbiter.holder = some .portP)) ∧
      (∀ count, 1 ≤ count → count ≤ 16 → (s.slot k).state ≠ .empty → index + count ≤ (s.slot k).length →
        ∃ t, exec (.readRecords k index count) s = .next t ∧
          t = { s with portP := t.portP, arbiter := t.arbiter } ∧
          t.portP = { s.portP with reply := .empty, frame := .closed } ∧
          t.arbiter.portP = some ⟨k, index, count, spansOf (s.slot k).blockMap index count, none, false⟩ ∧
          (s.arbiter.holder ≠ none → t.arbiter.holder = s.arbiter.holder) ∧
          (s.arbiter.holder = none → (∀ r x, s.arbiter.request r ≠ .waiting x) → t.arbiter.holder = some .portP))) ∧
  (∀ (s : State) (k index : Nat), s.takesFrame .p = true →
    (∀ records, (15 < k ∨ records.length = 0 ∨ 16 < records.length) →
      ∃ t, exec (.writeRecords k index records) s = .next t ∧ s.onlyPort t .p ∧ s.answers t .p .range []) ∧
    (∀ records, k ≤ 15 → 1 ≤ records.length → records.length ≤ 16 → (s.slot k).state = .closing →
      ∃ t, exec (.writeRecords k index records) s = .next t ∧ s.onlyPort t .p ∧ s.answers t .p .busy []) ∧
    (∀ records, k ≤ 15 → 1 ≤ records.length → records.length ≤ 16 → (s.slot k).state = .loading →
      index + records.length ≤ (s.slot k).length → (∃ r ∈ records, storedRecord r = none) →
      ∃ t, exec (.writeRecords k index records) s = .next t ∧ s.onlyPort t .p ∧ s.answers t .p .range []) ∧
    (∀ count, (15 < k ∨ count = 0 ∨ 16 < count) →
      ∃ t, exec (.readRecords k index count) s = .next t ∧ s.onlyPort t .p ∧ s.answers t .p .range [])) ∧
  (∀ r : WireRecord,
    let within := -1270 ≤ r.dx ∧ r.dx ≤ 1270 ∧ -1270 ≤ r.dy ∧ r.dy ≤ 1270
    (r.kindCode = 1 → within → storedRecord r = some ⟨.stitch, decide (r.flags % 2 = 1), r.dx, r.dy⟩) ∧
    (r.kindCode = 2 → within → storedRecord r = some ⟨.jump, false, r.dx, r.dy⟩) ∧
    ((r.kindCode = 1 ∨ r.kindCode = 2) → ¬ within → storedRecord r = none) ∧
    (r.kindCode = 3 → storedRecord r = some ⟨.trim, false, 0, 0⟩) ∧
    (r.kindCode = 4 → storedRecord r = some ⟨.colour, false, 0, 0⟩) ∧
    (r.kindCode = 5 → storedRecord r = some ⟨.pause, false, 0, 0⟩) ∧
    (r.kindCode = 6 → storedRecord r = some ⟨.endRecord, false, 0, 0⟩) ∧
    ((r.kindCode = 0 ∨ 6 < r.kindCode) → storedRecord r = none)) ∧
  ∀ (s : State) (r : Requester), s.power ≠ .held → s.arbiter.request r = .pausing →
    ∃ t, exec (.requestPauseExpiry r) s = .next t ∧ t = { s with arbiter := t.arbiter } ∧
      (s.wantedRead r = none → t.arbiter = s.arbiter.putRequest r .idle) ∧
      (∀ x, s.wantedRead r = some x → s.arbiter.holder ≠ none → t.arbiter = s.arbiter.putRequest r (.waiting x)) ∧
      (∀ x, s.wantedRead r = some x → s.arbiter.holder = none → (∀ q y, s.arbiter.request q ≠ .waiting y) →
        t.arbiter = { s.arbiter.putRequest r (.served x true) with holder := some (.internal r) })

/-- A record frame that fails an access check is refused with the noted kind of highest precedence; the fault goes to the
access fault record, which takes the first fault in full and of a later one only its kinds; nothing is read or written.
CLEAR_FAULT_RECORD is answered in every state with the access fault record as it stood, and empties and unfreezes it; that
reply's presence bytes, command code and widths are the model's reading (log 12), and the byte of its kinds set is a free
value (log 4). -/
def Obligations.AccessFaultsRecordedAndCleared : Prop :=
  (∀ (s : State) (k index : Nat) (write : Bool) (records : List WireRecord) (count : Nat),
    s.takesFrame .p = true → k ≤ 15 → 1 ≤ count → count ≤ 16 → records.length = count →
    (write = true → (s.slot k).state ≠ .closing) →
    let absent := decide ((s.slot k).state = .empty)
    let long := decide ((s.slot k).length < index + count)
    let readOnly := write && decide ((s.slot k).state ≠ .loading)
    (absent || long || readOnly) = true →
    ∃ t, exec (if write then .writeRecords k index records else .readRecords k index count) s = .next t ∧
      s.answers t .p (if absent then .absent else if long then .length else .readOnly) [] ∧
      t = { s.loseReply .p with portP := t.portP, faultRecord := t.faultRecord } ∧
      t.faultRecord = if s.faultRecord.frozen then
          { s.faultRecord with kinds :=
            { absent := s.faultRecord.kinds.absent || absent, length := s.faultRecord.kinds.length || long,
              readOnly := s.faultRecord.kinds.readOnly || readOnly,
              uncorrectable := s.faultRecord.kinds.uncorrectable } }
        else
          { frozen := true, source := some .portP,
            command := some (if write then .writeRecords else .readRecords), slot := some k, index := some index,
            kinds := { absent := absent, length := long, readOnly := readOnly, uncorrectable := false } }) ∧
  ∀ s : State, s.takesFrame .p = true → ∃ t, exec .clearFaultRecord s = .next t ∧
    (s.answers t .p .ok
        (let f := s.faultRecord;
          flagByte f.frozen ++ optBytes 1 (f.source.map FaultSource.code) ++ optBytes 1 (f.command.map FaultCommand.code) ++
          optBytes 1 f.slot ++ optBytes 3 f.index ++
          [Config.faultKindsByte f.kinds.absent f.kinds.length f.kinds.readOnly f.kinds.uncorrectable])) ∧
    t = { s.loseReply .p with portP := t.portP, faultRecord := t.faultRecord } ∧
    t.faultRecord = { frozen := false, source := none, command := none, slot := none, index := none,
                      kinds := ⟨false, false, false, false⟩ }

/-- A write request changes either every position it names or none of them. It reads and checks each COMPLETE chunk that it
covers only in part, and ends OK exactly when none of these is uncorrectable: then every record stands in its position, and
a position of a covered chunk that it does not name keeps its content. Otherwise it ends UNCORRECTABLE with the first record
index of the first such chunk, a fault in the access fault record, and every chunk as it was but those found corrected before
it. No chunk it does not cover changes, and no slot. -/
def Obligations.WriteRequestAllOrNone : Prop :=
  ∀ (s : State) (a : PortAccess) (map : List Nat) (rs : List StitchRecord),
    s.power ≠ .held → s.arbiter.holder = some .portP → s.arbiter.portP = some a → a.write = some rs →
    a.spans = spansOf map a.index rs.length → 1 ≤ rs.length → a.index + rs.length ≤ 512 * map.length → map.Nodup →
    (∀ b ∈ map, s.runLocked b = false) →
    let at_ := fun g : Nat => s.chunk (chunkOf map (4 * g))
    let named := fun i : Nat => a.index ≤ i ∧ i < a.index + rs.length
    let checked := fun g : Nat => (∃ p, p < 4 ∧ named (4 * g + p)) ∧ (at_ g).state = .complete ∧
      ∃ p, p < 4 ∧ (at_ g).cell p ≠ .padding ∧ ¬ named (4 * g + p)
    let bad := fun g : Nat => checked g ∧ (at_ g).outcome = .uncorrectable
    ∃ t, exec .portStoreAccessDone s = .next t ∧ t.arbiter.portP = none ∧
      t = { s with store := t.store, events := t.events, faultRecord := t.faultRecord, arbiter := t.arbiter,
                   portP := t.portP } ∧
      (∀ n, ¬ covers map a.index rs.length n → t.chunk n = s.chunk n) ∧
      (a.replyLost = true → t.portP = s.portP) ∧
      ((∀ g, ¬ bad g) →
        t.faultRecord = s.faultRecord ∧
        (a.replyLost = false → t.portP.reply = .held { status := t.statusByte .p, code := .ok, payload := [] }) ∧
        (∀ j, j < rs.length → t.cellAt map (a.index + j) = .written (rs.getD j endOfDesign)) ∧
        ((∀ g, checked g → (at_ g).outcome = .clean) → t.events = s.events) ∧
        ∀ g p, (∃ q, q < 4 ∧ named (4 * g + q)) → p < 4 → ¬ named (4 * g + p) →
          (at_ g).changed = [] ∨ (at_ g).state = .complete ∧ (at_ g).changed.length ≤ 2 →
          t.cellAt map (4 * g + p) = (at_ g).cell p ∧ (t.chunk (chunkOf map (4 * g))).changed = []) ∧
      ∀ g, bad g → (∀ k, k < g → ¬ bad k) →
        (a.replyLost = false → t.portP.reply =
          .held { status := t.statusByte .p, code := .uncorrectable, payload := beBytes 3 (4 * g) }) ∧
        t.faultRecord.frozen = true ∧ t.faultRecord.kinds.uncorrectable = true ∧
        (s.faultRecord.frozen = false → t.faultRecord = {
          frozen := true, source := some .portP, command := some .writeRecords, slot := some a.slot,
          index := some (4 * g), kinds := ⟨false, false, false, true⟩ }) ∧
        (∀ k, k < g → checked k → (at_ k).outcome = .corrected → t.chunk (chunkOf map (4 * k)) = (at_ k).corrected) ∧
        ∀ n, (∀ k, k < g → checked k → (at_ k).outcome = .corrected → n ≠ chunkOf map (4 * k)) → t.chunk n = s.chunk n

/-- A read request delivers the content of its indices in order, blank and padding positions as END, with the corrected flag
set when one of its chunks was corrected; a corrected chunk is written back. It ends at the first chunk of which two bits
have changed with UNCORRECTABLE, the first record index of that chunk and no records: the fault is recorded and a READY slot
becomes DAMAGED. That the flag goes out in one byte, 00h clear and 01h set, is the model's reading (log 12). -/
def Obligations.ReadRequestDeliversRecords : Prop :=
  ∀ (s : State) (a : PortAccess) (map : List Nat),
    s.power ≠ .held → s.arbiter.holder = some .portP → s.arbiter.portP = some a → a.write = none →
    a.spans = spansOf map a.index a.count → 1 ≤ a.count → a.count ≤ 16 → a.index + a.count ≤ 512 * map.length →
    let at_ := fun g : Nat => s.chunk (chunkOf map (4 * g))
    let covered := fun g : Nat => ∃ p, p < 4 ∧ a.index ≤ 4 * g + p ∧ 4 * g + p < a.index + a.count
    let good := fun g : Nat => (at_ g).changed = [] ∨ (at_ g).state = .complete ∧ (at_ g).changed.length = 1
    ∃ t, exec .portStoreAccessDone s = .next t ∧ t.arbiter.portP = none ∧ (a.replyLost = true → t.portP = s.portP) ∧
      ((∀ g, covered g → good g) →
        t = { s with arbiter := t.arbiter, portP := t.portP, store := t.store, events := t.events } ∧
        (∀ g, covered g → t.chunk (chunkOf map (4 * g)) = { at_ g with changed := [] }) ∧
        (∀ n, ¬ covers map a.index a.count n → t.chunk n = s.chunk n) ∧
        ((∀ g, covered g → (at_ g).changed = []) → t.store = s.store ∧ t.events = s.events) ∧
        (a.replyLost = false → t.portP.reply = .held
          { status := t.statusByte .p, code := .ok,
            payload := BitVec.ofNat 8 a.count ::
              ((List.range a.count).flatMap (fun j => recordBytes (s.cellAt map (a.index + j)).content) ++
                [if ((List.range a.count).any fun j =>
                    decide ((s.chunk (chunkOf map (a.index + j))).changed ≠ [])) = true then 1 else 0]) })) ∧
      ∀ g, covered g → (at_ g).state = .complete → (at_ g).changed.length = 2 →
        (∀ k, k < g → covered k → good k) →
        t = { s with arbiter := t.arbiter, portP := t.portP, store := t.store, events := t.events,
                     faultRecord := t.faultRecord, slots := t.slots } ∧
        (∀ k, k < g → covered k → t.chunk (chunkOf map (4 * k)) = { at_ k with changed := [] }) ∧
        (∀ n, (∀ k, k < g → covered k → n ≠ chunkOf map (4 * k)) → t.chunk n = s.chunk n) ∧
        (a.replyLost = false → t.portP.reply =
          .held { status := t.statusByte .p, code := .uncorrectable, payload := beBytes 3 (4 * g) }) ∧
        t.faultRecord.frozen = true ∧ t.faultRecord.kinds.uncorrectable = true ∧
        (s.faultRecord.frozen = false → t.faultRecord = {
          frozen := true, source := some .portP, command := some .readRecords, slot := some a.slot,
          index := some (4 * g), kinds := ⟨false, false, false, true⟩ }) ∧
        (∀ k, k ≠ a.slot → t.slot k = s.slot k) ∧
        t.slot a.slot = { s.slot a.slot with
          state := if (s.slot a.slot).state = .ready then .damaged else (s.slot a.slot).state }

/-- One changed bit of a COMPLETE chunk is corrected by the next read, which delivers the records as written, writes the
chunk back as it was before the bit changed and posts MEMORY_CORRECTED with the chunk number; two changed bits make the read
uncorrectable, and it changes nothing. -/
def Obligations.OneBitCorrectedTwoBitsNot : Prop :=
  ∀ (s : State) (n : Nat), n < 65536 → (s.chunk n).state = .complete → (s.chunk n).changed = [] →
    (∀ b, b < 266 → ∃ t, exec (.storeBitChange n [b]) s = .next t ∧ t = { s with store := t.store } ∧
      (∀ m, m ≠ n → t.chunk m = s.chunk m) ∧ (t.chunk n).outcome = .corrected ∧
      let u := (t.readChunk n).1
      (t.readChunk n).2 = .records (s.chunk n).contents true ∧ (∀ m, u.chunk m = s.chunk m) ∧
      u = { s with store := u.store, events := (s.post .memoryCorrected 0 (BitVec.ofNat 32 n)).events } ∧
      (u.readChunk n) = (u, .records (s.chunk n).contents false)) ∧
    (∀ b c, b < 266 → c < 266 → b ≠ c → ∃ t, exec (.storeBitChange n [b, c]) s = .next t ∧ t = { s with store := t.store } ∧
      (∀ m, m ≠ n → t.chunk m = s.chunk m) ∧ (t.chunk n).outcome = .uncorrectable ∧
      t.readChunk n = (t, .uncorrectable))

/-- SET_COLOURS is tested in its order, the edit lock of the armed slot last, and when taken defines exactly the entries it
names. -/
def Obligations.SetColoursDefinesEntries : Prop :=
  ∀ (s : State) (k first : Nat) (entries : List ColourEntry), s.takesFrame .p = true →
    ∃ t, exec (.setColours k first entries) s = .next t ∧
    if 15 < k ∨ entries.length < 1 ∨ 16 < entries.length then s.onlyPort t .p ∧ s.answers t .p .range []
    else if (s.slot k).state = .empty then s.onlyPort t .p ∧ s.answers t .p .absent []
    else if (s.slot k).state = .closing then s.onlyPort t .p ∧ s.answers t .p .busy []
    else if (s.slot k).state = .damaged then s.onlyPort t .p ∧ s.answers t .p .state []
    else if 128 < first + entries.length then s.onlyPort t .p ∧ s.answers t .p .range []
    else if ∃ e ∈ entries, e.needle = 0 ∨ s.constants.needles < e.needle then s.onlyPort t .p ∧ s.answers t .p .range []
    else if (s.slot k).armed = true ∧
        (s.run.state = .running ∨ s.run.state = .stopping ∨ s.run.state = .changing) ∧ first ≤ s.run.colourBlock then
      s.onlyPort t .p ∧ s.answers t .p .locked []
    else if (s.slot k).armed = true ∧ s.run.state = .walking then s.onlyPort t .p ∧ s.answers t .p .busy []
    else
      s.answers t .p .ok [] ∧ t = { s.loseReply .p with portP := t.portP, slots := t.slots } ∧
      (∀ j, j ≠ k → t.slot j = s.slot j) ∧ t.slot k = { s.slot k with colours := (t.slot k).colours } ∧
      (∀ j, j < entries.length → (t.slot k).colour (first + j) = entries[j]?) ∧
      (∀ b, b < first ∨ first + entries.length ≤ b → (t.slot k).colour b = (s.slot k).colour b)

/-- CLOSE_DESIGN is tested in its order and, when taken, makes the slot CLOSING and starts the scan at index 0 with position
(0, 0), counts 0 and extents 0; the scan asks for the chunk of index 0 unless it still pauses: the path goes to it at once
where it is free and no internal request waits, else it waits. -/
def Obligations.CloseDesignStartsScan : Prop :=
  ∀ (s : State) (k : Nat), s.takesFrame .p = true → ∃ t, exec (.closeDesign k) s = .next t ∧
    if 15 < k then s.onlyPort t .p ∧ s.answers t .p .range []
    else if (s.slot k).state = .closing then s.onlyPort t .p ∧ s.answers t .p .busy []
    else if (s.slot k).state ≠ .loading then s.onlyPort t .p ∧ s.answers t .p .state []
    else if s.scan.isSome = true then s.onlyPort t .p ∧ s.answers t .p .busy []
    else
      s.answers t .p .accepted [] ∧
      t = { s with portP := t.portP, slots := t.slots, scan := t.scan, arbiter := t.arbiter } ∧
      t.slot k = { s.slot k with state := .closing } ∧ (∀ j, j ≠ k → t.slot j = s.slot j) ∧
      t.scan = some { slot := k, index := 0, position := ⟨0, 0⟩, colours := 0, stitches := 0, extents := ⟨0, 0, 0, 0⟩ } ∧
      (s.arbiter.closeScan = .idle → s.arbiter.holder ≠ none →
        t.arbiter = { (s.loseReply .p).arbiter with closeScan := .waiting ⟨chunkOf (s.slot k).blockMap 0, 0⟩ }) ∧
      (s.arbiter.closeScan = .idle → s.arbiter.holder = none → (∀ r x, s.arbiter.request r ≠ .waiting x) →
        t.arbiter = { (s.loseReply .p).arbiter with
          closeScan := .served ⟨chunkOf (s.slot k).blockMap 0, 0⟩ true, holder := some (.internal .closeScan) }) ∧
      (s.arbiter.closeScan ≠ .idle → t.arbiter = (s.loseReply .p).arbiter)

/-- What the close scan finds in a chunk of records, from index, position and counts on. A record passes where it is END
exactly at L−1, where as a COLOUR record it does not make the colour count 128, and where as a STITCH or JUMP it leads to a
position within ±100,000 du on both axes. A chunk all of whose records below L pass raises the index, the position and the
counts by what they hold and widens the extents to every position a STITCH or JUMP leads to; otherwise the scan stops at the
first that does not pass, with the index, the position and the counts in front of it, and with its cause. -/
def Obligations.CloseScanExaminesRecords : Prop :=
  ∀ (len : Nat) (c : CloseScan) (rs : List StitchRecord),
    let seen := rs.take (len - c.index)
    let count := fun (kind : RecordKind) (j : Nat) => ((seen.take j).filter fun r => decide (r.kind = kind)).length
    let position := fun j : Nat => positionOf c.position (seen.take j)
    let moved := fun j : Nat => ((List.range j).filter fun i =>
      seen[i]?.any fun r => decide (r.kind = .stitch) || decide (r.kind = .jump)).map fun i => position (i + 1)
    let upTo := fun j : Nat => ({
      slot := c.slot, index := c.index + j, position := position j, colours := c.colours + count .colour j,
      stitches := c.stitches + count .stitch j,
      extents := ⟨(moved j).foldl (fun m d => min m d.x) c.extents.xmin, (moved j).foldl (fun m d => max m d.x) c.extents.xmax,
        (moved j).foldl (fun m d => min m d.y) c.extents.ymin, (moved j).foldl (fun m d => max m d.y) c.extents.ymax⟩ }
      : CloseScan)
    let passes := fun (j : Nat) (r : StitchRecord) =>
      (r.kind = .endRecord ↔ c.index + j = len - 1) ∧
      (r.kind = .colour → c.colours + count .colour j + 1 ≠ 128) ∧
      (r.kind = .stitch ∨ r.kind = .jump →
        -100000 ≤ (position (j + 1)).x ∧ (position (j + 1)).x ≤ 100000 ∧
        -100000 ≤ (position (j + 1)).y ∧ (position (j + 1)).y ≤ 100000)
    (∀ d, scanRecords len c rs = (d, none) →
      (∀ j r, seen[j]? = some r → passes j r) ∧ d = upTo seen.length ∧ (c.colours ≤ 127 → d.colours ≤ 127)) ∧
    (∀ d cause, scanRecords len c rs = (d, some cause) →
      ∃ j r, seen[j]? = some r ∧ (∀ i q, i < j → seen[i]? = some q → passes i q) ∧ ¬ passes j r ∧ d = upTo j ∧
        cause = if r.kind = .endRecord then .earlyEnd else if c.index + j = len - 1 then .noEnd
          else if r.kind = .colour then .colourCount else .span)

/-- The end of a close scan read. A chunk that is not COMPLETE fails the scan with INCOMPLETE at the lowest index below L not
written, and returns the slot to LOADING. A COMPLETE one no bit of which has changed and whose records pass moves the scan
on, or, past record L−1, makes the slot READY with what was found; a record at fault returns the slot to LOADING. One of
which two bits have changed fails with UNCORRECTABLE: the slot becomes DAMAGED and the fault is recorded. -/
def Obligations.CloseScanReadEnds : Prop :=
  ∀ (s : State) (c : CloseScan) (x : StoreRead), s.power ≠ .held → s.arbiter.holder = some (.internal .closeScan) →
    s.arbiter.closeScan = .served x true → s.scan = some c →
    let chunk := s.chunk x.chunk
    let len := (s.slot c.slot).length
    let failed := fun (code index : Nat) => BitVec.ofNat 32 (c.slot % 16 * 2 ^ 28 + code * 2 ^ 24 + index % 2 ^ 18)
    ∃ t, exec .closeScanReadDone s = .next t ∧ t.arbiter.closeScan = .pausing ∧
      (∀ j, j ≠ c.slot → t.slot j = s.slot j) ∧
      (chunk.state ≠ .complete →
        t = { s with arbiter := t.arbiter, scan := none, slots := t.slots, events := t.events } ∧
        t.slot c.slot = { s.slot c.slot with state := .loading } ∧
        ∀ p, p < 4 → chunk.cell p = .blank → (∀ q, q < p → chunk.cell q ≠ .blank) → c.index + p < len →
          t.posted [(.closeFailed, 0, failed 0 (c.index + p))]) ∧
      (chunk.state = .complete → chunk.changed = [] →
        t = { s with arbiter := t.arbiter, scan := t.scan, slots := t.slots, events := t.events } ∧
        (∀ d cause, scanRecords len c chunk.contents = (d, some cause) → cause ≠ .uncorrectable → d.slot = c.slot →
          t.scan = none ∧ t.slot c.slot = { s.slot c.slot with state := .loading } ∧
          t.posted [(.closeFailed, 0, failed (match cause with
            | .incomplete => 0 | .earlyEnd => 1 | .noEnd => 2 | .span => 3 | .colourCount => 4 | .uncorrectable => 5)
            d.index)]) ∧
        ∀ d, scanRecords len c chunk.contents = (d, none) → d.slot = c.slot →
          (d.index < len → t.scan = some d ∧ t.slot c.slot = s.slot c.slot ∧ t.events = s.events) ∧
          (len ≤ d.index → t.scan = none ∧
            t.slot c.slot = { s.slot c.slot with
              state := .ready, colourCount := d.colours, stitchCount := d.stitches, extents := d.extents } ∧
            t.posted [(.closeDone, 0, BitVec.ofNat 32 (c.slot % 16))])) ∧
      (chunk.state = .complete → chunk.changed.length = 2 →
        t = { s with arbiter := t.arbiter, scan := none, slots := t.slots, events := t.events,
                     faultRecord := t.faultRecord } ∧
        t.slot c.slot = { s.slot c.slot with state := .damaged } ∧
        t.posted [(.closeFailed, 0, failed 5 c.index)] ∧
        t.faultRecord.frozen = true ∧ t.faultRecord.kinds.uncorrectable = true ∧
        (s.faultRecord.frozen = false → t.faultRecord = {
          frozen := true, source := some .closeScan, command := some .closeDesign, slot := some c.slot,
          index := some c.index, kinds := ⟨false, false, false, true⟩ }))

/-- DELETE is tested in its order and, when taken, gives every block of the slot back to the pool and leaves the slot
EMPTY; no chunk and no other slot changes, and the access fault record stands. KEEP sets or clears the keep flag of a slot in
every slot state but EMPTY and every run state, and changes nothing else. -/
def Obligations.DeleteReturnsBlocks : Prop :=
  (∀ (s : State) (k : Nat), s.takesFrame .p = true → ∃ t, exec (.delete k) s = .next t ∧
    if 15 < k then s.onlyPort t .p ∧ s.answers t .p .range []
    else if (s.slot k).armed = true then s.onlyPort t .p ∧ s.answers t .p .inUse []
    else if (s.slot k).keep = true then s.onlyPort t .p ∧ s.answers t .p .kept []
    else if (s.slot k).state = .closing then s.onlyPort t .p ∧ s.answers t .p .busy []
    else if (s.slot k).state = .empty then s.onlyPort t .p ∧ s.answers t .p .absent []
    else
      s.answers t .p .ok [] ∧ t = { s.loseReply .p with portP := t.portP, slots := t.slots, pool := t.pool } ∧
      t.pool.Perm (s.pool ++ (s.slot k).blockMap) ∧ (∀ j, j ≠ k → t.slot j = s.slot j) ∧
      (t.slot k).state = .empty ∧ (t.slot k).length = 0 ∧ (t.slot k).blockMap = [] ∧ (t.slot k).keep = false ∧
      (t.slot k).armed = false ∧ (∀ b, (t.slot k).colour b = none) ∧ (t.slot k).colourCount = 0 ∧
      (t.slot k).stitchCount = 0 ∧ (t.slot k).extents = ⟨0, 0, 0, 0⟩) ∧
  ∀ (s : State) (k : Nat) (on : Bool), s.takesFrame .p = true → ∃ t, exec (.keep k on) s = .next t ∧
    if 15 < k then s.onlyPort t .p ∧ s.answers t .p .range []
    else if (s.slot k).state = .empty then s.onlyPort t .p ∧ s.answers t .p .absent []
    else
      s.answers t .p .ok [] ∧ t = { s.loseReply .p with portP := t.portP, slots := t.slots } ∧
      t.slot k = { s.slot k with keep := on } ∧ ∀ j, j ≠ k → t.slot j = s.slot j

/-! ### Frame arithmetic (chapter 3) -/

/-- The fourth stage of a target is the nearest integer to X′ / 2^22, a value exactly halfway going up, for negative values
as for positive ones: k is the quotient exactly when (2k − 1)·2^21 ≤ X′ < (2k + 1)·2^21. Fx and Fy are the origin plus
floor((X′ + 2,097,152) / 4,194,304) and floor((Y′ + 2,097,152) / 4,194,304). So at angle 0 with scale 1024 and
no mirror every target is the origin plus four times the design position, the mirror turns the sign of the x delta alone,
and the origin is the target of (0, 0) under every transform. -/
def Obligations.TargetRoundsHalfTowardPlus : Prop :=
  (∀ (v k : Int), roundTarget v = k ↔ (2 * k - 1) * 2097152 ≤ v ∧ v < (2 * k + 1) * 2097152) ∧
    (∀ (t : Transform) (d : Point),
      let a := (if t.mirror then -d.x else d.x) * t.sx
      let b := d.y * t.sy
      target t d = ⟨t.ox + (a * t.cosine - b * t.sine + 2097152) / 4194304,
        t.oy + (a * t.sine + b * t.cosine + 2097152) / 4194304⟩) ∧
    (∀ (ox oy : Nat) (d : Point), target (transformOf 1024 1024 0 false ox oy) d = ⟨ox + 4 * d.x, oy + 4 * d.y⟩) ∧
    (∀ (ox oy : Nat) (d : Point), target (transformOf 1024 1024 0 true ox oy) d = ⟨ox - 4 * d.x, oy + 4 * d.y⟩) ∧
    ∀ t : Transform, target t ⟨0, 0⟩ = ⟨t.ox, t.oy⟩

/-- A split has one piece where the move length is M or less, else ceil(length / M); its sub-targets run monotonically on
each axis from the start to the target, end on it, lie at the rounded point k/n of the way, and no sub-move is longer than
M on either axis. -/
def Obligations.SplitPiecesReachTarget : Prop :=
  ∀ (start goal : Point) (maxStep : Nat), 1 ≤ maxStep →
    let m := goal.minus start
    let n := pieceCount maxStep m
    let at_ := subTarget start goal n
    (moveLength m ≤ maxStep → n = 1) ∧
    (maxStep < moveLength m → maxStep * (n - 1) < moveLength m ∧ moveLength m ≤ maxStep * n) ∧
    at_ 0 = start ∧ at_ n = goal ∧
    (∀ k, 1 ≤ k → k ≤ n →
      at_ k = ⟨start.x + (2 * k * m.x + n) / (2 * n), start.y + (2 * k * m.y + n) / (2 * n)⟩ ∧
      (((at_ k).minus (at_ (k - 1))).x.natAbs ≤ maxStep ∧ ((at_ k).minus (at_ (k - 1))).y.natAbs ≤ maxStep) ∧
      (0 ≤ m.x → (at_ (k - 1)).x ≤ (at_ k).x) ∧ (m.x ≤ 0 → (at_ k).x ≤ (at_ (k - 1)).x) ∧
      (0 ≤ m.y → (at_ (k - 1)).y ≤ (at_ k).y) ∧ (m.y ≤ 0 → (at_ k).y ≤ (at_ (k - 1)).y))

/-- The ceiling of a STEP or TRAVEL token is exactly what the five steps of R53 give: the band speed of its length; where
SLOW, floor(band / 20) × 10, and 100 where that is less; the lesser of that and the run speed; while the ramp count is above
0 the lesser of that and the start speed; the result clamped to 100..1200 and floored to a multiple of 10. For constants in
range it stands above neither the band speed nor a run speed of 100 or more. The band speed of a length is that of the first
entry whose threshold is at or above it, and of the last entry where the length exceeds every threshold. SET_SPEED is taken
in every run state: the run speed becomes the value clamped and floored, the reply carries it, and nothing else changes. -/
def Obligations.CeilingIsExact : Prop :=
  (∀ (c : Constants) (speed ramp len : Nat) (slow : Bool),
    let band := bandSpeed c.bands len
    let slowed := if slow = true then (if band / 20 * 10 < 100 then 100 else band / 20 * 10) else band
    let limited := if speed < slowed then speed else slowed
    let ramped := if 0 < ramp ∧ c.startSpeed < limited then c.startSpeed else limited
    let v := ceilingOf c speed ramp len slow
    v = (if ramped < 100 then 100 else if 1200 < ramped then 1200 else ramped) / 10 * 10 ∧
    (c.inRange → 100 ≤ speed → 100 ≤ v ∧ v ≤ 1200 ∧ v % 10 = 0 ∧ v ≤ band ∧ v ≤ speed)) ∧
  (∀ (bands : List (Nat × Nat)) (len : Nat),
    (∀ i (h : i < bands.length), len ≤ bands[i].1 → (∀ j (g : j < bands.length), j < i → bands[j].1 < len) →
      bandSpeed bands len = bands[i].2) ∧
    (∀ h : bands ≠ [], (∀ b ∈ bands, b.1 < len) → bandSpeed bands len = (bands.getLast h).2)) ∧
  ∀ (s : State) (v : Nat), s.takesFrame .p = true → ∃ t, exec (.setSpeed v) s = .next t ∧
    t = { s.loseReply .p with portP := t.portP, run := { s.run with speed := t.run.speed } } ∧
    t.run.speed = (if v < 100 then 100 else if 1200 < v then 1200 else v / 10 * 10) ∧
    s.answers t .p .ok (beBytes 2 t.run.speed)

/-! ### The run (chapter 4) -/

/-- ARM is tested in its order; a refused ARM changes nothing, and one that is taken sets the run record, the Sequencer, the
Move Queue, the slot and the trace, leaving the machine needle and the run speed. The transform holds the scales clamped to
512..2048, the angle modulo 360, and the sine and cosine of that angle from the table of S(0) to S(90) by quadrant. -/
def Obligations.ArmSetsUpRun : Prop :=
  let table : List Int :=
    [0, 286, 572, 857, 1143, 1428, 1713, 1997, 2280, 2563] ++
    [2845, 3126, 3406, 3686, 3964, 4240, 4516, 4790, 5063, 5334] ++
    [5604, 5872, 6138, 6402, 6664, 6924, 7182, 7438, 7692, 7943] ++
    [8192, 8438, 8682, 8923, 9162, 9397, 9630, 9860, 10087, 10311] ++
    [10531, 10749, 10963, 11174, 11381, 11585, 11786, 11982, 12176, 12365] ++
    [12551, 12733, 12911, 13085, 13255, 13421, 13583, 13741, 13894, 14044] ++
    [14189, 14330, 14466, 14598, 14726, 14849, 14968, 15082, 15191, 15296] ++
    [15396, 15491, 15582, 15668, 15749, 15826, 15897, 15964, 16026, 16083] ++
    [16135, 16182, 16225, 16262, 16294, 16322, 16344, 16362, 16374, 16382] ++
    [16384]
  let S := fun d : Nat => table.getD d 0
  ∀ (s : State) (k sx sy angle : Nat) (mirror : Bool) (ox oy nowX nowY : Nat), s.takesFrame .p = true →
    ∃ t, exec (.arm k sx sy angle mirror ox oy nowX nowY) s = .next t ∧
    if 15 < k then s.onlyPort t .p ∧ s.answers t .p .range []
    else if s.run.state ≠ .idle then s.onlyPort t .p ∧ s.answers t .p .state []
    else if s.ring.state = .enumerating then s.onlyPort t .p ∧ s.answers t .p .busy []
    else if (s.slot k).state ≠ .ready then s.onlyPort t .p ∧ s.answers t .p .state []
    else if ((List.range ((s.slot k).colourCount + 1)).any fun b =>
        ((s.slot k).colour b).all fun e => decide (s.constants.needles < e.needle)) = true then
      s.onlyPort t .p ∧ s.answers t .p .incomplete []
    else if ¬ (s.constants.xmin ≤ ox ∧ ox ≤ s.constants.xmax ∧ s.constants.ymin ≤ oy ∧ oy ≤ s.constants.ymax) then
      s.onlyPort t .p ∧ s.answers t .p .range []
    else if ¬ (s.constants.xmin ≤ nowX ∧ nowX ≤ s.constants.xmax ∧ s.constants.ymin ≤ nowY ∧ nowY ≤ s.constants.ymax) then
      s.onlyPort t .p ∧ s.answers t .p .range []
    else
      s.answers t .p .accepted [] ∧
      t = { s with portP := t.portP, slots := t.slots, arbiter := t.arbiter, trace := t.trace, run := t.run, seq := t.seq,
                   queue := t.queue } ∧
      t.slot k = { s.slot k with armed := true } ∧ (∀ j, j ≠ k → t.slot j = s.slot j) ∧
      t.run = { s.run with
        state := .arming, armedSlot := some k, pass := .main,
        transform :=
          let d := angle % 360
          { sx := Nat.max 512 (Nat.min 2048 sx), sy := Nat.max 512 (Nat.min 2048 sy), angle := d, mirror := mirror,
            ox := ox, oy := oy,
            sine := if d ≤ 90 then S d else if d ≤ 180 then S (180 - d) else if d ≤ 270 then -S (d - 180) else -S (360 - d),
            cosine := if d ≤ 90 then S (90 - d) else if d ≤ 180 then -S (d - 90)
              else if d ≤ 270 then -S (270 - d) else S (d - 270) },
        cursor := 0, design := ⟨0, 0⟩, frame := ⟨nowX, nowY⟩, colourBlock := 0, stopReason := .none,
        outstanding := false, faultChunk := none } ∧
      t.seq = { cursor := 0, design := ⟨0, 0⟩, frame := ⟨nowX, nowY⟩, ramp := 0, approach := true, split := none,
                haltFlag := false, halt := none, buffer := none } ∧
      t.queue = { issued := [], prepared := [], nextSeq := 0, lastDone := none, starved := false } ∧
      t.trace = some { index := 0, position := ⟨0, 0⟩ }

/-- The arm trace passes a chunk of records exactly when every STITCH and JUMP below L among them has its target in the
field, and otherwise names the first that has not, with its target. At the end of a trace read, past record L−1 the run is
ARMED; a target outside the field returns it to IDLE with the slot released; a chunk found uncorrectable does the same and
makes a READY slot DAMAGED, with the fault recorded. -/
def Obligations.TraceFindsFirstOutsideField : Prop :=
  (∀ (c : Constants) (tr : Transform) (len : Nat) (a : ArmTrace) (rs : List StitchRecord),
    let seen := rs.take (len - a.index)
    let outside := fun j => ∃ r, seen[j]? = some r ∧ (r.kind = .stitch ∨ r.kind = .jump) ∧
      inField c (target tr (positionOf a.position (seen.take (j + 1)))) = false
    (∀ b, traceRecords c tr len a rs = (b, none) → (∀ j, ¬ outside j) ∧ b.index = a.index + seen.length ∧
      b.position = positionOf a.position seen) ∧
    (∀ b i g, traceRecords c tr len a rs = (b, some (i, g)) →
      ∃ j, i = a.index + j ∧ outside j ∧ g = target tr (positionOf a.position (seen.take (j + 1))) ∧
        ∀ k, k < j → ¬ outside k)) ∧
  ∀ (s : State) (a : ArmTrace) (x : StoreRead) (k : Nat), s.power ≠ .held → s.arbiter.holder = some (.internal .trace) →
    s.arbiter.trace = .served x true → s.trace = some a → s.run.state = .arming → s.run.armedSlot = some k →
    (s.chunk x.chunk).state = .complete →
    ∃ t, exec .traceReadDone s = .next t ∧ t.arbiter.trace = .pausing ∧
      ((s.chunk x.chunk).changed = [] → ∀ b,
        traceRecords s.constants s.run.transform (s.slot k).length a (s.chunk x.chunk).contents = (b, none) →
        t.slots = s.slots ∧
        (b.index < (s.slot k).length → t.trace = some b ∧ t.run = s.run ∧ t.events = s.events) ∧
        ((s.slot k).length ≤ b.index → t.trace = none ∧ t.run = { s.run with state := .armed } ∧
          t.posted [(.armDone, 0, BitVec.ofNat 32 (k % 16))])) ∧
      ((s.chunk x.chunk).changed = [] → ∀ b i g,
        traceRecords s.constants s.run.transform (s.slot k).length a (s.chunk x.chunk).contents = (b, some (i, g)) →
        t.trace = none ∧ t.run = { s.run with state := .idle, armedSlot := none } ∧
        t.slot k = { s.slot k with armed := false } ∧ (∀ j, j ≠ k → t.slot j = s.slot j) ∧
        ((s.classOf 22).log = true → ∃ e, t.events.getLast? = some e ∧ e.kind = .armFailed ∧ e.head = 0 ∧
          e.param = BitVec.ofNat 32 (k % 16 * 2 ^ 28 + i % 2 ^ 18) ∧ e.target = some g)) ∧
      ((s.chunk x.chunk).changed.length = 2 →
        t.trace = none ∧ t.run = { s.run with state := .idle, armedSlot := none } ∧
        t.slot k = { s.slot k with
          armed := false, state := if (s.slot k).state = .ready then .damaged else (s.slot k).state } ∧
        (∀ j, j ≠ k → t.slot j = s.slot j) ∧
        t.posted [(.armFailed, 0, BitVec.ofNat 32 (k % 16 * 2 ^ 28 + 2 ^ 24 + a.index % 2 ^ 18))] ∧
        t.faultRecord.frozen = true ∧ t.faultRecord.kinds.uncorrectable = true ∧
        (s.faultRecord.frozen = false → t.faultRecord.source = some .trace ∧ t.faultRecord.command = some .arm ∧
          t.faultRecord.slot = some k ∧ t.faultRecord.index = some a.index))

/-- START is tested in its order; taken, it writes NONE into the stop reason and either makes the run RUNNING with the ramp
count at R, where the needle of the current colour block is the machine needle, or starts a change to it with action
RESUME over every head neither ABSENT nor LOST. -/
def Obligations.StartRunsOrChanges : Prop :=
  ∀ s : State, s.takesFrame .p = true → ∃ t, exec .start s = .next t ∧
    if s.run.state = .walking then s.onlyPort t .p ∧ s.answers t .p .busy []
    else if s.run.state ≠ .armed ∧ s.run.state ≠ .paused then s.onlyPort t .p ∧ s.answers t .p .state []
    else if ¬ ∃ h ∈ headNumbers, (s.head h).state = .active ∨ (s.head h).state = .waiting then
      s.onlyPort t .p ∧ s.answers t .p .noHeads []
    else
      let needle := (s.colourEntry s.run.colourBlock).needle
      s.answers t .p .ok [] ∧
      if needle = s.run.needle then
        t = { s.loseReply .p with
          portP := t.portP, run := { s.run with state := .running, stopReason := .none },
          seq := { s.seq with ramp := s.constants.ramp } }
      else
        t = { s.loseReply .p with portP := t.portP, run := t.run, change := t.change, ring := t.ring } ∧
        t.run = { s.run with state := .changing, stopReason := .none } ∧
        t.change = some {
          target := needle, action := .resume, selectionSent := false, deadline := none, listFull := false,
          confirm := headNumbers.filter fun h =>
            decide ((s.head h).state ≠ .absent) && decide ((s.head h).state ≠ .lost) } ∧
        ((s.ring.state = .full ∨ s.ring.state = .split) → ⟨.selectNeedle, 31, needle⟩ ∈ t.ring.requests)

/-- STOP from either port is never refused; it acts by the run state: RUNNING becomes STOPPING, a change is to end in PAUSED,
a walk ends at the record reached, an arm trace is aborted, and every other state stands. -/
def Obligations.StopActsByRunState : Prop :=
  ∀ (s : State) (port : Port), s.takesFrame port = true → ∃ t, exec (.stop port) s = .next t ∧
    s.answers t port .ok [] ∧
    let reason : StopReason := match port with | .p => .panel | .m => .motionRequest
    match s.run.state with
    | .running => t.run = { s.run with state := .stopping, stopReason := reason } ∧
        t.seq = { s.seq with buffer := none } ∧ t.queue = s.queue ∧ t.heads = s.heads ∧ t.events = s.events
    | .changing => t.run = { s.run with stopReason := reason } ∧
        t.change = s.change.map (fun c => { c with action := .pause }) ∧ t.queue = s.queue ∧ t.heads = s.heads
    | .walking => ∀ w, s.walk = some w → w.listEmptied = false →
        t.walk = none ∧ t.run.cursor = w.cursor ∧ t.run.design = w.design ∧ t.run.colourBlock = w.colourBlock ∧
        t.run.frame = s.run.frame ∧ t.run.stopReason = s.run.stopReason ∧
        t.run.state = (if w.cursor = s.designLength then .finished else .paused) ∧
        t.seq.cursor = w.cursor ∧ t.seq.design = w.design ∧ t.seq.frame = s.run.frame ∧ t.seq.approach = true ∧
        ((s.classOf 23).log = true → ∃ e, t.events.getLast? = some e ∧ e.kind = .walkDone ∧
          e.param = BitVec.ofNat 32 (2 * 2 ^ 24 + w.cursor % 2 ^ 18))
    | .arming => t.trace = none ∧ t.run = { s.run with state := .idle, armedSlot := none } ∧
        (∀ k, s.run.armedSlot = some k → t.slot k = { s.slot k with armed := false }) ∧ t.events = s.events
    | _ => s.onlyPort t port

/-- DISARM is refused with STATE in IDLE, RUNNING, STOPPING, CHANGING and WALKING; taken, it empties the queue and the Repair
List, returns HELD_FAULT, RESTING, WAITING and HELD_NEEDLE heads whose machine needle is not inhibited to ACTIVE, releases
the slot and leaves the rest of the run record. That a HELD_FAULT, RESTING or WAITING head with the machine needle inhibited
keeps its state is the model's reading of R115 (log 8). -/
def Obligations.DisarmReleasesRun : Prop :=
  ∀ s : State, s.takesFrame .p = true → ∃ t, exec .disarm s = .next t ∧
    if s.run.state = .idle ∨ s.run.state = .running ∨ s.run.state = .stopping ∨ s.run.state = .changing ∨
        s.run.state = .walking then s.onlyPort t .p ∧ s.answers t .p .state []
    else
      s.answers t .p .ok [] ∧
      t = { s with portP := t.portP, slots := t.slots, arbiter := t.arbiter, trace := t.trace, run := t.run, seq := t.seq,
                   queue := t.queue, ring := t.ring, heads := t.heads, repairs := t.repairs } ∧
      t.queue = { s.queue with issued := [], prepared := [] } ∧ t.repairs = [] ∧
      t.seq = { s.seq with haltFlag := false, split := none, halt := none, approach := false } ∧
      t.run = { s.run with state := .idle, armedSlot := none, pass := .main, outstanding := false, faultChunk := none } ∧
      (∀ k, s.run.armedSlot = some k → t.slot k = { s.slot k with armed := false }) ∧
      (∀ k, s.run.armedSlot ≠ some k → t.slot k = s.slot k) ∧
      (s.run.state = .arming → t.trace = none) ∧
      ∀ h ∈ headNumbers,
        if ((s.head h).state = .heldFault ∨ (s.head h).state = .resting ∨ (s.head h).state = .waiting ∨
            (s.head h).state = .heldNeedle) ∧ s.barred h = false then
          (t.head h).state = .active ∧ (t.head h).cause = none ∧ (t.head h).noMotion = 0 ∧ (t.head h).tension = 0 ∧
            (t.head h).lastMotion = s.run.cursor
        else t.head h = s.head h

/-! ### The Move Queue and the motion exchange (chapter 5) -/

/-- A turn of preparation at a STITCH or JUMP with nothing in progress places the first piece of its split under the next
sequence number, with its kind, move, ceiling and checkpoint; the record is passed when the split has one piece, else the
split is in progress. Nothing else changes. -/
def Obligations.TurnPlacesFirstPiece : Prop :=
  ∀ (s : State) (r : StitchRecord), s.power ≠ .held → s.mayPrepare = true → s.seq.split = none → s.seq.halt = none →
    s.seq.approach = false → s.atJoin = false → s.bufferedRecord = some r → (r.kind = .stitch ∨ r.kind = .jump) →
    let design : Point := ⟨s.seq.design.x + r.dx, s.seq.design.y + r.dy⟩
    let goal := target s.run.transform design
    let n := pieceCount s.constants.maxStep (goal.minus s.seq.frame)
    let reached := subTarget s.seq.frame goal n 1
    let move := reached.minus s.seq.frame
    let step := decide (r.kind = .stitch ∧ n = 1)
    ∃ t, exec .prepareTurn s = .next t ∧ t = { s with queue := t.queue, seq := t.seq } ∧
      t.queue = { s.queue with
        nextSeq := (s.queue.nextSeq + 1) % 65536,
        prepared := s.queue.prepared ++ [{
          seq := s.queue.nextSeq, kind := if step then .step else .travel, reason := none, mx := move.x, my := move.y,
          ceiling := some (ceilingOf s.constants s.run.speed s.seq.ramp (moveLength move) (r.slow && step)),
          index := s.seq.cursor, frameAfter := reached, lastOfRecord := decide (n = 1), designAfter := design,
          role := .record }] } ∧
      t.seq = { s.seq with
        frame := reached, ramp := if step then s.seq.ramp - 1 else s.seq.ramp,
        split := if n = 1 then none else some ⟨s.seq.frame, goal, n, 1, .record⟩,
        design := if n = 1 then design else s.seq.design, cursor := if n = 1 then s.seq.cursor + 1 else s.seq.cursor }

/-- A turn with the split of a STITCH or JUMP in progress places its next piece: a TRAVEL, or for the last piece of a STITCH
a STEP, with its move, ceiling and checkpoint; the last piece passes the record. A turn with an approach split in progress,
or pending where the target of the prepared design position is not the prepared frame position, places the next piece of
the approach, a TRAVEL that is never the last of a record, and the last piece clears the approach flag. A zero approach
clears the flag, and the turn is as if it had not been pending (log 21). -/
def Obligations.TurnPlacesLaterPieceOrApproach : Prop :=
  ∀ s : State, s.power ≠ .held → s.mayPrepare = true →
    let places := fun (sp : Split) (step slow last : Bool) (design : Point) (role : TokenRole) (q : Sequencer) =>
      let reached := subTarget sp.start sp.target sp.pieces (sp.prepared + 1)
      let move := reached.minus s.seq.frame
      exec .prepareTurn s = .next { s with
        queue := { s.queue with
          nextSeq := (s.queue.nextSeq + 1) % 65536,
          prepared := s.queue.prepared ++ [{
            seq := s.queue.nextSeq, kind := if step then .step else .travel, reason := none, mx := move.x, my := move.y,
            ceiling := some (ceilingOf s.constants s.run.speed s.seq.ramp (moveLength move) slow),
            index := s.seq.cursor, frameAfter := reached, lastOfRecord := last, designAfter := design, role := role }] },
        seq := { q with frame := reached, ramp := if step then s.seq.ramp - 1 else s.seq.ramp } }
    let approach := fun (sp : Split) =>
      places sp false false false s.seq.design .approach
        (if sp.prepared + 1 = sp.pieces then { s.seq with split := none, approach := false }
          else { s.seq with split := some { sp with prepared := sp.prepared + 1 } })
    (∀ (sp : Split) (r : StitchRecord), s.seq.split = some sp → sp.owner = .record → s.bufferedRecord = some r →
      let last := decide (sp.prepared + 1 = sp.pieces)
      let step := last && decide (r.kind = .stitch)
      let design := positionAfter s.seq.design r
      places sp step (r.slow && step) last design .record
        (if sp.prepared + 1 = sp.pieces then
          { s.seq with split := none, design := design, cursor := s.seq.cursor + 1 }
        else { s.seq with split := some { sp with prepared := sp.prepared + 1 } })) ∧
    (∀ sp, s.seq.split = some sp → sp.owner = .approach → approach sp) ∧
    (s.seq.split = none → s.seq.halt = none → s.seq.approach = true →
      let goal := target s.run.transform s.seq.design
      (goal ≠ s.seq.frame →
        approach { start := s.seq.frame, target := goal, prepared := 0, owner := .approach,
                   pieces := pieceCount s.constants.maxStep (goal.minus s.seq.frame) }) ∧
      (goal = s.seq.frame →
        exec .prepareTurn s = exec .prepareTurn { s with seq := { s.seq with approach := false } }))

/-- A turn at a TRIM, COLOUR, PAUSE or END record, at a halt whose TRIM is placed, or at a join index places one token
without move or ceiling that carries the prepared positions: the TRIM of the record, the TRIM in front of a halt, or the
HALT with its reason, which sets the halt flag. While any condition of preparation fails, a turn does nothing. -/
def Obligations.TurnPlacesTrimOrHalt : Prop :=
  ∀ s : State, s.power ≠ .held →
    (s.mayPrepare = false → exec .prepareTurn s = .next s) ∧
    (s.mayPrepare = true → s.seq.split = none →
      let token := fun (kind : TokenKind) (reason : Option HaltReason) (last : Bool) (role : TokenRole) =>
        ({ seq := s.queue.nextSeq, kind := kind, reason := reason, mx := 0, my := 0, ceiling := none,
           index := s.seq.cursor, frameAfter := s.seq.frame, lastOfRecord := last, designAfter := s.seq.design,
           role := role } : Token)
      let places := fun (k : Token) (q : Sequencer) =>
        exec .prepareTurn s = .next { s with
          queue := { s.queue with prepared := s.queue.prepared ++ [k], nextSeq := (s.queue.nextSeq + 1) % 65536 },
          seq := q }
      (∀ h, s.seq.halt = some h → h.reason ≠ .join →
        places (token .halt (some h.reason) true .record)
          { s.seq with haltFlag := true, halt := none, cursor := s.seq.cursor + 1 }) ∧
      (s.seq.halt = none → s.seq.approach = false →
        (s.atJoin = true → places (token .halt (some .join) false .record) { s.seq with haltFlag := true, halt := none }) ∧
        ∀ r, s.atJoin = false → s.bufferedRecord = some r →
          (r.kind = .trim → places (token .trim none true .record) { s.seq with cursor := s.seq.cursor + 1 }) ∧
          (r.kind = .pause → places (token .halt (some .pause) true .record)
            { s.seq with haltFlag := true, halt := none, cursor := s.seq.cursor + 1 }) ∧
          (r.kind = .endRecord →
            places (token .trim none false .haltTrim) { s.seq with halt := some ⟨.endRecord, true⟩ }) ∧
          (r.kind = .colour → s.constants.trimAtChange = true →
            places (token .trim none false .haltTrim) { s.seq with halt := some ⟨.colour, true⟩ }) ∧
          (r.kind = .colour → s.constants.trimAtChange = false →
            places (token .halt (some .colour) true .record)
              { s.seq with haltFlag := true, halt := none, cursor := s.seq.cursor + 1 })))

/-- The Sequencer prepares exactly while the run is RUNNING, the queue holds fewer than 64 tokens and the halt flag is clear. A
turn that needs the record at the prepare cursor where the chunk buffer does not hold it asks for its chunk, unless a read or
a pause stands in the way, and places nothing. A prepare read that ends clean or corrected puts the chunk's records in the
chunk buffer; one that ends uncorrectable in RUNNING sets the fault chunk, records the fault and makes the run STOPPING with
reason MEMORY, leaving every token in the queue. -/
def Obligations.PrepareReadFillsBufferOrStops : Prop :=
  (∀ s : State, s.mayPrepare = true ↔
    s.run.state = .running ∧ s.queue.issued.length + s.queue.prepared.length < 64 ∧ s.seq.haltFlag = false) ∧
  (∀ s : State, s.power ≠ .held → s.mayPrepare = true → s.seq.cursor < s.designLength →
    let x : StoreRead := ⟨chunkOf s.armedRecord.blockMap s.seq.cursor, s.seq.cursor⟩
    (∀ b, s.seq.buffer = some b → b.chunk = x.chunk →
      s.bufferedRecord = some (b.records.getD (s.seq.cursor % 4) endOfDesign)) ∧
    ((∀ b, s.seq.buffer = some b → b.chunk ≠ x.chunk) →
      (s.seq.split = none ∧ s.seq.halt = none ∧ s.seq.approach = false ∧ s.atJoin = false ∨
        ∃ sp, s.seq.split = some sp ∧ sp.owner = .record) →
      (s.arbiter.sequencer ≠ .idle → exec .prepareTurn s = .next s) ∧
      (s.arbiter.sequencer = .idle → s.arbiter.holder ≠ none →
        exec .prepareTurn s = .next { s with arbiter := { s.arbiter with sequencer := .waiting x } }) ∧
      (s.arbiter.sequencer = .idle → s.arbiter.holder = none →
        exec .prepareTurn s = .next { s with
          arbiter := { s.arbiter with sequencer := .served x true, holder := some (.internal .sequencer) } }))) ∧
  ∀ (s : State) (x : StoreRead), s.power ≠ .held → s.arbiter.holder = some (.internal .sequencer) →
    s.arbiter.sequencer = .served x true → (s.chunk x.chunk).state = .complete →
    ((s.chunk x.chunk).changed.length ≤ 1 → ∃ t, exec .prepareReadDone s = .next t ∧
      t = { s with arbiter := t.arbiter, seq := t.seq, store := t.store, events := t.events } ∧
      t.arbiter.sequencer = .pausing ∧ t.seq = { s.seq with buffer := some ⟨x.chunk, (s.chunk x.chunk).contents⟩ } ∧
      ((s.chunk x.chunk).changed = [] → t.store = s.store ∧ t.events = s.events) ∧
      ((s.chunk x.chunk).changed ≠ [] → t.chunk x.chunk = { s.chunk x.chunk with changed := [] } ∧
        t.posted [(.memoryCorrected, 0, BitVec.ofNat 32 (x.chunk % 2 ^ 16))])) ∧
    ((s.chunk x.chunk).changed.length = 2 → s.run.state = .running → ∃ t, exec .prepareReadDone s = .next t ∧
      t = { s with arbiter := t.arbiter, seq := t.seq, run := t.run, faultRecord := t.faultRecord } ∧
      t.run = { s.run with state := .stopping, stopReason := .memory, faultChunk := some x.chunk } ∧
      t.seq = { s.seq with buffer := none } ∧ t.faultRecord.frozen = true ∧
      t.faultRecord.kinds.uncorrectable = true ∧
      (s.faultRecord.frozen = false → t.faultRecord.source = some .sequencer ∧ t.faultRecord.command = none ∧
        t.faultRecord.slot = some (s.run.armedSlot.getD 0) ∧ t.faultRecord.index = some (x.index - x.index % 4)))

/-- FETCH_MOVES is permitted on port M alone. A max outside 1..8 is refused with RANGE; else it issues the oldest prepared tokens, as many as max, the prepared
count and the room among 32 allow, and none outside RUNNING, in order in its reply; taken in RUNNING with nothing prepared
and no halt flag it opens a starvation episode, which posts QUEUE_STARVED once. -/
def Obligations.FetchIssuesOldestTokens : Prop :=
  (permitted .m 0x70 = true ∧ permitted .p 0x70 = false) ∧
  ∀ (s : State) (max : Nat), s.takesFrame .m = true → ∃ t, exec (.fetchMoves max) s = .next t ∧
    if max < 1 ∨ 8 < max then s.onlyPort t .m ∧ s.answers t .m .range []
    else
      let n := if s.run.state = .running then Nat.min max (Nat.min s.queue.prepared.length (32 - s.queue.issued.length)) else 0
      let starves := s.run.state = .running ∧ s.queue.prepared = [] ∧ s.seq.haltFlag = false
      s.answers t .m .ok (BitVec.ofNat 8 n :: (s.queue.prepared.take n).flatMap tokenBytes) ∧
      t = { s with portM := t.portM, queue := t.queue, events := t.events } ∧
      t.queue.issued = s.queue.issued ++ s.queue.prepared.take n ∧ t.queue.prepared = s.queue.prepared.drop n ∧
      t.queue.nextSeq = s.queue.nextSeq ∧ t.queue.lastDone = s.queue.lastDone ∧
      (0 < n → t.queue.starved = false ∧ t.events = s.events) ∧ (starves → t.queue.starved = true) ∧
      (¬ starves → t.events = s.events) ∧ (s.queue.starved = true → t.events = s.events) ∧
      (starves → s.queue.starved = false → (s.classOf 14).log = true → ∃ e, t.events.getLast? = some e ∧
        e.kind = .queueStarved ∧ e.head = 0 ∧ e.param = BitVec.ofNat 32 (s.seq.cursor % 2 ^ 18))

/-- DONE that names no issued token is refused with SEQUENCE and changes nothing; one that names an issued token, none of
the tokens up to it a HALT, completes them oldest first by their checkpoints alone, in a MAIN pass, and leaves the tokens
after it. The heads, the ring, the Repair List and the events may change by the handover of the STEPs. -/
def Obligations.DoneCompletesByCheckpoints : Prop :=
  ∀ (s : State) (n : Nat), s.takesFrame .m = true →
    ((∀ k ∈ s.queue.issued, k.seq ≠ n) → ∃ t, exec (.done n) s = .next t ∧ s.onlyPort t .m ∧ s.answers t .m .sequence []) ∧
    ∀ (before after : List Token) (last : Token), s.queue.issued = before ++ last :: after → last.seq = n →
      (∀ k ∈ before, k.seq ≠ n) → s.run.pass = .main →
      (∀ k ∈ before ++ [last], k.kind ≠ .halt ∧ k.reason = none) →
      ∃ t, exec (.done n) s = .next t ∧
        t.queue = { s.queue with issued := after, lastDone := some n } ∧
        t.run.frame = last.frameAfter ∧
        (match ((before ++ [last]).filter (·.lastOfRecord)).getLast? with
          | some k => t.run.cursor = k.index + 1 ∧ t.run.design = k.designAfter
          | none => t.run.cursor = s.run.cursor ∧ t.run.design = s.run.design) ∧
        t.run.colourBlock = s.run.colourBlock ∧ t.run.needle = s.run.needle ∧ t.run.armedSlot = s.run.armedSlot ∧
        t.run.transform = s.run.transform ∧ t.run.pass = .main ∧ t.store = s.store ∧ t.slots = s.slots ∧
        t.portM = { s.portM with
          frame := .closed,
          reply := .held ⟨t.statusByte .m, .ok, BitVec.ofNat 8 (before.length + 1) :: beBytes 3 t.run.cursor⟩ }

/-- The STEPs a DONE completes are added to the no-motion count of every ACTIVE head, held at K, and every head whose count
reaches K breaks: HELD_FAULT with cause BREAK, its presser and lamp queued, a FAULT entry B records back from its last motion
and no higher than the executed cursor, THREAD_BREAK in ascending order of head. Then the fault policy once: under STOP_ALL,
or where no head is left ACTIVE, a RUNNING run is STOPPING with reason FAULT; else it goes on. No other head changes. In a
MAIN pass, with no HALT among the tokens. -/
def Obligations.BreakFoundAtHandover : Prop :=
  ∀ (s : State) (n : Nat) (before after : List Token) (last : Token), s.takesFrame .m = true → s.run.pass = .main →
    s.queue.issued = before ++ last :: after → last.seq = n → (∀ k ∈ before, k.seq ≠ n) →
    (∀ k ∈ before ++ [last], k.kind ≠ .halt ∧ k.reason = none) → (s.run.state = .running ∨ s.run.state = .stopping) →
    let steps := ((before ++ [last]).filter fun k => decide (k.kind = .step)).length
    let breaks := fun h : Nat =>
      (s.head h).state = .active ∧ s.constants.motionLimit ≤ (s.head h).noMotion + steps
    let broken := headNumbers.filter fun h => decide (breaks h)
    ∃ t, exec (.done n) s = .next t ∧
      t = { s with portM := t.portM, queue := t.queue, run := t.run, seq := t.seq, arbiter := t.arbiter, heads := t.heads,
                   ring := t.ring, repairs := t.repairs, events := t.events } ∧
      let from_ := fun h : Nat => Nat.min ((s.head h).lastMotion - s.constants.backstep) t.run.cursor
      (∀ h ∈ headNumbers, (s.head h).state ≠ .active → t.head h = s.head h) ∧
      (∀ h ∈ headNumbers, (s.head h).state = .active → ¬ breaks h →
        t.head h = { s.head h with noMotion := (s.head h).noMotion + steps }) ∧
      (∀ h ∈ broken,
        t.head h = { s.head h with
          state := .heldFault, cause := some (.thread .breakFault), noMotion := s.constants.motionLimit } ∧
        { head := h, kind := .fault .breakFault, fromIndex := from_ h, toBlock := none, toIndex := none, deferred := none,
          sewing := false } ∈ t.repairs ∧
        ((s.ring.state = .full ∨ s.ring.state = .split) →
          ⟨.presser, h, 1⟩ ∈ t.ring.requests ∧ ⟨.lamp, h, 3⟩ ∈ t.ring.requests)) ∧
      t.posted (broken.map fun h => (.threadBreak, h, BitVec.ofNat 32 (from_ h % 2 ^ 18))) ∧
      (broken = [] → t.events = s.events ∧ t.ring = s.ring) ∧
      (s.run.state = .stopping → t.run.state = .stopping ∧ t.run.stopReason = s.run.stopReason) ∧
      (s.run.state = .running →
        if broken ≠ [] ∧ (s.constants.faultPolicy = .stopAll ∨
            ∀ h ∈ headNumbers, (s.head h).state = .active → breaks h) then
          t.run.state = .stopping ∧ t.run.stopReason = .fault
        else t.run.state = .running ∧ t.run.stopReason = s.run.stopReason)

/-- STOPPED that names neither an issued token nor the last completed one is refused with SEQUENCE and changes nothing; one
that is taken completes the tokens up to the one it names by their checkpoints, empties the queue and brings the Sequencer
back to the executed point, an approach of which a token is discarded pending again and the halt flag cleared where a HALT
is discarded. With no HALT completed it leaves RUNNING, in a MAIN pass, and STOPPING in PAUSED with RUN_STOPPED, in RUNNING
with stop reason MOTION where no thread breaks at its handover, and FAULT where one does under STOP_ALL; but STOPPING with
reason MEMORY in FAULT, the armed READY slot DAMAGED and MEMORY_FAULT posted with the fault chunk, and STOPPING with reason
REPAIR_DONE in FINISHED with REPAIR_DONE. That form 01h is taken or refused whatever its two seq bytes hold is the model's
reading (log 28). -/
def Obligations.StoppedRollsBackToExecutedPoint : Prop :=
  ∀ (s : State) (n : Nat), s.takesFrame .m = true →
    ((∀ k ∈ s.queue.issued, k.seq ≠ n) → s.queue.lastDone ≠ some n →
      ∃ t, exec (.stopped 0 n) s = .next t ∧ s.onlyPort t .m ∧ s.answers t .m .sequence []) ∧
    (s.queue.lastDone ≠ none → ∃ t, exec (.stopped 1 n) s = .next t ∧ s.onlyPort t .m ∧ s.answers t .m .sequence []) ∧
    (∀ form, 1 < form → ∃ t, exec (.stopped form n) s = .next t ∧ s.onlyPort t .m ∧ s.answers t .m .sequence []) ∧
    ∀ (form : Nat) (completed discarded : List Token), s.queue.issued = completed ++ discarded →
      (form = 0 ∧ (∃ before last, completed = before ++ [last] ∧ last.seq = n ∧ ∀ k ∈ before, k.seq ≠ n) ∨
        form = 0 ∧ completed = [] ∧ (∀ k ∈ s.queue.issued, k.seq ≠ n) ∧ s.queue.lastDone = some n ∨
        form = 1 ∧ completed = [] ∧ s.queue.lastDone = none) →
      ∃ t, exec (.stopped form n) s = .next t ∧
        t.queue.issued = [] ∧ t.queue.prepared = [] ∧ t.queue.nextSeq = s.queue.nextSeq ∧
        t.queue.lastDone = (match completed.getLast? with | some k => some k.seq | none => s.queue.lastDone) ∧
        t.run.frame = (match completed.getLast? with | some k => k.frameAfter | none => s.run.frame) ∧
        (match (completed.filter (·.lastOfRecord)).getLast? with
          | some k => t.run.cursor = k.index + 1 ∧ t.run.design = k.designAfter
          | none => t.run.cursor = s.run.cursor ∧ t.run.design = s.run.design) ∧
        t.seq.cursor = t.run.cursor ∧ t.seq.design = t.run.design ∧ t.seq.frame = t.run.frame ∧
        t.seq.split = none ∧ t.seq.halt = none ∧ t.seq.buffer = none ∧
        t.seq.approach = (s.seq.approach ||
          (discarded ++ s.queue.prepared).any fun k => decide (k.role = .approach)) ∧
        t.portM = { s.portM with
          frame := .closed,
          reply := .held ⟨t.statusByte .m, .ok, BitVec.ofNat 8 completed.length :: beBytes 3 t.run.cursor⟩ } ∧
        ((∀ k ∈ completed, k.kind ≠ .halt) → t.seq.ramp = s.seq.ramp ∧
          t.seq.haltFlag = (s.seq.haltFlag && !(discarded ++ s.queue.prepared).any fun k => decide (k.kind = .halt)) ∧
          (s.run.pass = .main →
            (s.run.state = .running ∨
              s.run.state = .stopping ∧ s.run.stopReason ≠ .memory ∧ s.run.stopReason ≠ .repairDone) →
            t.run.state = .paused ∧ t.posted [(.runStopped, 0, BitVec.ofNat 32 (t.run.stopReason.code % 16))] ∧
            (s.run.state = .stopping → t.run.stopReason = s.run.stopReason) ∧
            (s.run.state = .running →
              let steps := (completed.filter fun k => decide (k.kind = .step)).length
              let breaks := ∃ h ∈ headNumbers,
                (s.head h).state = .active ∧ s.constants.motionLimit ≤ (s.head h).noMotion + steps
              (¬ breaks → t.run.stopReason = .motion) ∧
              (breaks → s.constants.faultPolicy = .stopAll → t.run.stopReason = .fault))) ∧
          (s.run.state = .stopping → s.run.stopReason = .memory →
            t.run.state = .fault ∧ t.run.stopReason = .memory ∧ t.run.faultChunk = s.run.faultChunk ∧
            (∀ j, s.run.armedSlot = some j → t.slot j =
              { s.slot j with state := if (s.slot j).state = .ready then .damaged else (s.slot j).state }) ∧
            ∀ c, s.run.faultChunk = some c → t.posted [(.memoryFault, 0, BitVec.ofNat 32 (c % 2 ^ 16))]) ∧
          (s.run.state = .stopping → s.run.stopReason = .repairDone →
            t.run.state = .finished ∧ t.run.stopReason = .repairDone ∧ t.slots = s.slots ∧
            t.posted [(.repairDone, 0, 0)]))

/-- A HALT that completes is resolved by its reason: in RUNNING a PAUSE leads to PAUSED and an END to FINISHED with their stop
reasons, a COLOUR starts a change into the current colour block with the action of its entry, and a JOIN goes on RUNNING; in
STOPPING the stop reason stands, the change is to end in PAUSED and a JOIN leads to PAUSED, but MEMORY leads to FAULT and
REPAIR_DONE to FINISHED. At a JOIN each head WAITING for the executed cursor becomes ACTIVE with its entries marked, or
HELD_NEEDLE with a SKIP entry where its needle is inhibited; that the join index of a head so held stands, and that a full
SKIP share posts nothing there, are the model's readings (log 19). The END of a REPAIR pass first removes the FAULT entries
being sewn. The events follow in their order. -/
def Obligations.HaltResolvesByReason : Prop :=
  ∀ (s : State) (k : Token),
    let t := s.resolveHalt k
    let stopping := s.run.state = .stopping ∧ s.run.stopReason ≠ .memory ∧ s.run.stopReason ≠ .repairDone
    let joins := ∀ h ∈ headNumbers,
      if (s.head h).state = .waiting ∧ (s.head h).joinIndex = some s.run.cursor then
        if s.barred h = true then
          t.head h = { s.head h with state := .heldNeedle, cause := none } ∧
          ((∀ e ∈ s.repairs, e.isSkip = false) →
            { head := h, kind := .skip, fromIndex := s.run.cursor, toBlock := some s.run.colourBlock, toIndex := none,
              deferred := none, sewing := false } ∈ t.repairs)
        else
          t.head h = { s.head h with state := .active, cause := none, noMotion := 0, tension := 0,
                                     lastMotion := s.run.cursor } ∧
          ∀ e ∈ t.repairs, e.head = h → e.fromIndex = s.run.cursor → e.sewing = true
      else t.head h = s.head h
    let change := fun (action : ChangeAction) =>
      t.run = { s.run with state := .changing } ∧
      t.change = some {
        target := (s.colourEntry s.run.colourBlock).needle, action := action, selectionSent := false, deadline := none,
        listFull := false, confirm := headNumbers.filter fun h => s.present h } ∧
      ((s.ring.state = .full ∨ s.ring.state = .split) →
        ⟨.selectNeedle, 31, (s.colourEntry s.run.colourBlock).needle⟩ ∈ t.ring.requests)
    t.seq.haltFlag = false ∧
    (s.run.state = .running ∨ stopping → k.reason = some .pause →
      t.run = { s.run with
        state := .paused, stopReason := if s.run.state = .running then .pause else s.run.stopReason } ∧
      t.posted [(.pauseRecord, 0, BitVec.ofNat 32 (k.index % 2 ^ 18))]) ∧
    (s.run.state = .running ∨ stopping → k.reason = some .endRecord →
      t.run = { s.run with
        state := .finished, stopReason := if s.run.state = .running then .endOfDesign else s.run.stopReason,
        outstanding := decide (t.repairs ≠ []) } ∧
      (s.run.pass = .main → t.repairs = s.repairs ∧ t.posted [(.designEnd, 0, 0)]) ∧
      (s.run.pass = .repair → t.repairs.Perm (s.repairs.filter fun e => !(e.isFault && e.sewing)) ∧
        t.posted [(.designEnd, 0, 1), (.repairDone, 0, BitVec.ofNat 32 (t.repairs.length % 64))])) ∧
    (s.run.state = .running → k.reason = some .colour → (∃ h ∈ headNumbers, s.present h = true) →
      change (match (s.colourEntry s.run.colourBlock).action with | .auto => .auto | .stop => .stop)) ∧
    (stopping → k.reason = some .colour → (∃ h ∈ headNumbers, s.present h = true) → change .pause) ∧
    (s.run.state = .running → k.reason = some .join →
      joins ∧ t.run = { s.run with outstanding := t.run.outstanding } ∧ t.events = s.events) ∧
    (stopping → k.reason = some .join →
      joins ∧ t.run = { s.run with state := .paused, outstanding := t.run.outstanding } ∧
      t.posted [(.runStopped, 0, BitVec.ofNat 32 (s.run.stopReason.code % 16))]) ∧
    (s.run.state = .stopping → s.run.stopReason = .memory →
      t.run = { s.run with state := .fault } ∧
      (∀ j, s.run.armedSlot = some j → (s.slot j).state = .ready → t.slot j = { s.slot j with state := .damaged }) ∧
      ∀ c, s.run.faultChunk = some c → t.posted [(.memoryFault, 0, BitVec.ofNat 32 (c % 2 ^ 16))]) ∧
    (s.run.state = .stopping → s.run.stopReason = .repairDone →
      t.run = { s.run with state := .finished } ∧ t.posted [(.repairDone, 0, 0)])

/-- A DONE that names a HALT does what a STOPPED that names it does: the tokens complete, the STEPs are handed over, the queue
is emptied, the Sequencer stands at the executed point with the halt flag clear, and the halt is resolved. So in a MAIN pass
in RUNNING a PAUSE ends in PAUSED, an END in FINISHED, and a COLOUR starts the change into the block that follows; where a
thread breaks at that handover under STOP_ALL, the run is STOPPING with reason FAULT when the halt is resolved. A JOIN of a
REPAIR pass, alone or after TRAVELs, makes each head WAITING for the executed cursor ACTIVE with its entries there being
sewn, or HELD_NEEDLE where its needle is inhibited; the run goes on RUNNING, or ends STOPPING in PAUSED with RUN_STOPPED.
That the join index of a head so held stands, and that a full SKIP share posts nothing, are the model's readings (log 19). -/
def Obligations.HaltReportsThroughExec : Prop :=
  ∀ (s : State) (n : Nat) (before after : List Token) (k : Token), s.takesFrame .m = true →
    s.queue.issued = before ++ k :: after → k.seq = n → (∀ x ∈ before, x.seq ≠ n) → k.kind = .halt →
    exec (.done n) s = exec (.stopped 0 n) s ∧
    ∃ t, exec (.done n) s = .next t ∧
      t.queue.issued = [] ∧ t.queue.prepared = [] ∧ t.queue.lastDone = some n ∧ t.run.frame = k.frameAfter ∧
      t.seq.haltFlag = false ∧ t.seq.cursor = t.run.cursor ∧ t.seq.design = t.run.design ∧ t.seq.frame = t.run.frame ∧
      (s.run.pass = .main → s.run.state = .running → k.lastOfRecord = true →
        (∀ x ∈ before, x.kind ≠ .halt ∧ x.reason = none) →
        let steps := (before.filter fun x => decide (x.kind = .step)).length
        let breaks := ∃ h ∈ headNumbers,
          (s.head h).state = .active ∧ s.constants.motionLimit ≤ (s.head h).noMotion + steps
        t.run.cursor = k.index + 1 ∧ t.run.design = k.designAfter ∧
        (breaks ∧ s.constants.faultPolicy = .stopAll ∨ ¬ breaks →
          (k.reason = some .pause →
            t.run.state = .paused ∧ t.run.stopReason = if breaks then .fault else .pause) ∧
          (k.reason = some .endRecord →
            t.run.state = .finished ∧ (t.run.stopReason = if breaks then .fault else .endOfDesign) ∧
            t.run.outstanding = decide (t.repairs ≠ [])) ∧
          (k.reason = some .colour → (∃ h ∈ headNumbers, s.present h = true) →
            t.run.state = .changing ∧ t.run.colourBlock = s.run.colourBlock + 1 ∧
            ∃ c, t.change = some c ∧ c.target = (s.colourEntry (s.run.colourBlock + 1)).needle ∧
              c.action = if breaks then .pause
                else match (s.colourEntry (s.run.colourBlock + 1)).action with | .auto => .auto | .stop => .stop))) ∧
      (s.run.pass = .repair → k.reason = some .join → k.lastOfRecord = false →
        (∀ x ∈ before, x.kind = .travel ∧ x.lastOfRecord = false) →
        (∀ h ∈ headNumbers, (s.head h).state = .active → (s.head h).noMotion < s.constants.motionLimit) →
        (s.run.state = .running ∨
          s.run.state = .stopping ∧ s.run.stopReason ≠ .memory ∧ s.run.stopReason ≠ .repairDone) →
        t.run = { s.run with
          frame := k.frameAfter, outstanding := t.run.outstanding,
          state := if s.run.state = .running then .running else .paused } ∧
        (s.run.state = .running → t.events = s.events) ∧
        (s.run.state = .stopping → t.posted [(.runStopped, 0, BitVec.ofNat 32 (s.run.stopReason.code % 16))]) ∧
        ∀ h ∈ headNumbers,
          if (s.head h).state = .waiting ∧ (s.head h).joinIndex = some s.run.cursor then
            if s.barred h = true then t.head h = { s.head h with state := .heldNeedle, cause := none }
            else t.head h = { s.head h with state := .active, cause := none, noMotion := 0, tension := 0,
                                            lastMotion := s.run.cursor } ∧
              ∀ e ∈ t.repairs, e.head = h → e.fromIndex = s.run.cursor → e.sewing = true
          else t.head h = s.head h)

/-! ### Walks and repair passes (chapters 6 and 10) -/

/-- WALK is tested in its order; taken, it sets up the walk record from the executed point with the goal and direction of
its mode and either asks for its first record (the path goes to it at once where it is free and no internal request waits) or,
where its end is met without a read, is over at once, with WALK_DONE and its end cause. Before each step a walk ends without a read or reads one record, by its mode and direction; that TO_BLOCK
forward ends with LIMIT at L is the model's reading (log 26). -/
def Obligations.WalkStartsFromExecutedPoint : Prop :=
  (∀ (s : State) (mode n : Nat), s.takesFrame .p = true → ∃ t, exec (.walk mode n) s = .next t ∧
    if 3 < mode ∨ mode ≤ 1 ∧ (n < 1 ∨ 9999 < n) then s.onlyPort t .p ∧ s.answers t .p .range []
    else if s.scan.isSome = true ∨ s.run.state = .arming ∨ s.run.state = .walking then
      s.onlyPort t .p ∧ s.answers t .p .busy []
    else if s.run.state ≠ .armed ∧ s.run.state ≠ .paused ∧ s.run.state ≠ .finished then
      s.onlyPort t .p ∧ s.answers t .p .state []
    else
      let len := s.designLength
      let goal := if mode ≤ 1 then n else if mode = 2 then Nat.min n (len - 1) else Nat.min n s.armedRecord.colourCount
      let w : WalkRecord :=
        { requester := .walk, mode := if mode = 0 then .back else if mode = 1 then .forward
            else if mode = 2 then .toIndex else .toBlock,
          goal := goal,
          direction := if mode = 0 then .back else if mode = 1 then .forward
            else if mode = 2 then (if goal < s.run.cursor then .back else if s.run.cursor < goal then .forward else .stay)
            else if goal ≤ s.run.colourBlock then .back else .forward,
          cursor := s.run.cursor, design := s.run.design, colourBlock := s.run.colourBlock, stitches := 0,
          deferredSkips := [], listEmptied := false }
      s.answers t .p .accepted [] ∧
      (∀ i, w.next len = .reads i →
        t = { s with portP := t.portP, arbiter := t.arbiter, run := { s.run with state := .walking }, walk := some w } ∧
        (s.arbiter.walk = .idle → s.arbiter.holder ≠ none →
          t.arbiter = { (s.loseReply .p).arbiter with walk := .waiting ⟨chunkOf s.armedRecord.blockMap i, i⟩ }) ∧
        (s.arbiter.walk = .idle → s.arbiter.holder = none → (∀ r y, s.arbiter.request r ≠ .waiting y) →
          t.arbiter = { (s.loseReply .p).arbiter with
            walk := .served ⟨chunkOf s.armedRecord.blockMap i, i⟩ true, holder := some (.internal .walk) }) ∧
        (s.arbiter.walk ≠ .idle → t.arbiter = (s.loseReply .p).arbiter)) ∧
      (∀ cause, w.next len = .ends cause →
        t = { s with portP := t.portP, arbiter := t.arbiter, run := t.run, seq := t.seq, walk := none, events := t.events } ∧
        t.run = { s.run with state := if s.run.cursor = len then .finished else .paused } ∧
        t.seq = { s.seq with
          cursor := s.run.cursor, design := s.run.design, frame := s.run.frame, approach := true, split := none,
          halt := none, haltFlag := false, buffer := none } ∧
        t.posted [(.walkDone, 0, BitVec.ofNat 32
          ((match cause with | .target => 0 | .limit => 1 | .stop => 2 | .memory => 3) * 2 ^ 24 + s.run.cursor % 2 ^ 18))])) ∧
  ∀ (w : WalkRecord) (len : Nat),
    (w.mode = .back → w.next len = if w.cursor = 0 then .ends .limit else .reads (w.cursor - 1)) ∧
    (w.mode = .forward → w.next len = if w.cursor < len then .reads w.cursor else .ends .limit) ∧
    (w.mode = .toIndex → w.next len =
      if w.cursor = w.goal then .ends .target
      else if w.direction = .back then .reads (w.cursor - 1) else .reads w.cursor) ∧
    (w.mode = .toBlock → w.direction = .back →
      w.next len = if w.cursor = 0 then .ends .target else .reads (w.cursor - 1)) ∧
    (w.mode = .toBlock → w.direction ≠ .back →
      w.next len = if w.cursor < len then .reads w.cursor else .ends .limit)

/-- The end of a walk read over a clean chunk: the walk takes its record and ends after it, or steps over it, by its mode and
direction; it goes on with its next read, or hands its point to the run record and the Sequencer with the frame position as
it was, the approach pending, and WALK_DONE with the index and the end cause. A read of which two bits have changed ends the
walk at the point it held: the fault is recorded, a READY slot becomes DAMAGED, and MEMORY_FAULT and WALK_DONE are posted. A
step over a record moves the walk's cursor, design position, colour block and stitch count as R96 states; that the stitch
count rises past 9,999 where the mode does not end on it is the model's choice (log 32), and what a step makes of a COLOUR
record at block 0, or of END forward, is the model's too (log 33). -/
def Obligations.WalkStepsAndWalkReadEnds : Prop :=
  (∀ (s : State) (w : WalkRecord) (x : StoreRead), s.power ≠ .held →
      s.arbiter.holder = some (.internal .walk) → s.arbiter.walk = .served x true → s.walk = some w →
      (s.chunk x.chunk).state = .complete → w.listEmptied = false →
      let ended := fun (t : State) (u : WalkRecord) (code : Nat) =>
        t.walk = none ∧ t.run.cursor = u.cursor ∧ t.run.design = u.design ∧ t.run.colourBlock = u.colourBlock ∧
        t.run.frame = s.run.frame ∧ t.run.state = (if u.cursor = s.designLength then .finished else .paused) ∧
        t.run.stopReason = s.run.stopReason ∧ t.run.needle = s.run.needle ∧ t.run.pass = s.run.pass ∧
        t.run.faultChunk = s.run.faultChunk ∧
        t.seq = { s.seq with
          cursor := u.cursor, design := u.design, frame := s.run.frame, approach := true, split := none, halt := none,
          haltFlag := false, buffer := none } ∧
        t.posted [(.walkDone, 0, BitVec.ofNat 32 (code * 2 ^ 24 + u.cursor % 2 ^ 18))]
      let code := fun cause : WalkEnd => match cause with | .target => 0 | .limit => 1 | .stop => 2 | .memory => 3
      ∃ t, exec .walkReadDone s = .next t ∧ t.arbiter.walk = .pausing ∧
        ((s.chunk x.chunk).changed = [] → t.store = s.store ∧ t.slots = s.slots ∧ t.faultRecord = s.faultRecord ∧
          ∀ u e, w.meet ((s.chunk x.chunk).contents.getD (x.index % 4) endOfDesign) = (u, e) →
            (e = none → ∀ i, u.next s.designLength = .reads i → t = { s with arbiter := t.arbiter, walk := some u }) ∧
            (∀ cause, e = some cause ∨ e = none ∧ u.next s.designLength = .ends cause →
              ended t u (code cause))) ∧
        ((s.chunk x.chunk).changed.length = 2 → ∀ k, s.run.armedSlot = some k →
          ended t w 3 ∧ t.store = s.store ∧
          (w.deferredSkips = [] → t.posted [(.memoryFault, 0, BitVec.ofNat 32 (x.chunk % 2 ^ 16)),
            (.walkDone, 0, BitVec.ofNat 32 (3 * 2 ^ 24 + w.cursor % 2 ^ 18))]) ∧
          t.slot k = { s.slot k with state := if (s.slot k).state = .ready then .damaged else (s.slot k).state } ∧
          (∀ j, j ≠ k → t.slot j = s.slot j) ∧
          t.faultRecord.frozen = true ∧ t.faultRecord.kinds.uncorrectable = true ∧
          (s.faultRecord.frozen = false → t.faultRecord = {
            frozen := true, source := some .walk, slot := some k, index := some (x.index - x.index % 4),
            command := some (match w.requester with | .walk => .walk | .repair => .repair),
            kinds := ⟨false, false, false, true⟩ }))) ∧
  ∀ (w : WalkRecord) (r : StitchRecord),
    (w.mode = .back → w.meet r =
      (w.stepBack r, if (w.stepBack r).stitches = w.goal then some .target else none)) ∧
    (w.mode = .forward → r.kind = .endRecord → w.meet r = (w, some .limit)) ∧
    (w.mode = .forward → r.kind ≠ .endRecord → w.meet r =
      (w.stepForward r, if (w.stepForward r).stitches = w.goal then some .target else none)) ∧
    (w.mode = .toIndex → w.meet r = (if w.direction = .back then w.stepBack r else w.stepForward r, none)) ∧
    (w.mode = .toBlock → w.direction = .back → w.meet r =
      if r.kind = .colour ∧ w.colourBlock = w.goal then (w, some .target) else (w.stepBack r, none)) ∧
    (w.mode = .toBlock → w.direction ≠ .back → w.meet r =
      (w.stepForward r, if (w.stepForward r).colourBlock = w.goal then some .target else none)) ∧
    w.stepForward r = { w with
      cursor := w.cursor + 1, design := positionAfter w.design r,
      colourBlock := w.colourBlock + (if r.kind = .colour then 1 else 0),
      stitches := w.stitches + (if r.kind = .stitch then 1 else 0) } ∧
    w.stepBack r = { w with
      cursor := w.cursor - 1, design := (w.stepBack r).design,
      colourBlock := w.colourBlock - (if r.kind = .colour then 1 else 0),
      stitches := w.stitches + (if r.kind = .stitch then 1 else 0) } ∧
    positionAfter (w.stepBack r).design r = w.design

/-- REPAIR is tested in its order; taken, the pass becomes REPAIR, the outstanding-repairs flag, every sewing mark and every
deferred block are cleared, and a walk to the least from-index of the list starts. At the end of the walk of REPAIR, by a
read that reaches its goal, by an uncorrectable read, by STOP, or at once where the cursor stands on its goal, every head is
placed by its entries: at the cursor reached it sews, or is held where its needle is inhibited; with entries above only it
waits for the least of them; with none it rests; and ABSENT, LOST and HELD_OPERATOR heads keep their state. -/
def Obligations.RepairStartsPass : Prop :=
  let placed := fun (s t : State) (c : Nat) => ∀ h ∈ headNumbers,
    let mine := s.repairs.filter fun e => decide (e.head = h)
    if (s.head h).state = .absent ∨ (s.head h).state = .lost ∨ (s.head h).state = .heldOperator then
      (t.head h).state = (s.head h).state ∧ (t.head h).joinIndex = none
    else if ∃ e ∈ mine, e.fromIndex = c then
      if s.barred h = true then (t.head h).state = .heldNeedle ∧ (t.head h).joinIndex = none
      else (t.head h).state = .active ∧ (t.head h).joinIndex = some c ∧
        ∀ e ∈ t.repairs, e.head = h → e.fromIndex = c → e.sewing = true
    else if ∃ e ∈ mine, c < e.fromIndex then
      (t.head h).state = .waiting ∧ ∃ e ∈ mine, (t.head h).joinIndex = some e.fromIndex ∧ c < e.fromIndex ∧
        ∀ f ∈ mine, c < f.fromIndex → e.fromIndex ≤ f.fromIndex
    else (t.head h).state = .resting ∧ (t.head h).joinIndex = none
  (∀ s : State, s.takesFrame .p = true → ∃ t, exec .repair s = .next t ∧
    if s.scan.isSome = true ∨ s.run.state = .arming ∨ s.run.state = .walking then
      s.onlyPort t .p ∧ s.answers t .p .busy []
    else if s.run.state ≠ .paused ∧ s.run.state ≠ .finished then s.onlyPort t .p ∧ s.answers t .p .state []
    else if s.repairs = [] then s.onlyPort t .p ∧ s.answers t .p .state []
    else
      s.answers t .p .accepted [] ∧ t.run.pass = .repair ∧ t.run.outstanding = false ∧
      ∀ least, (∃ e ∈ s.repairs, e.fromIndex = least) → (∀ e ∈ s.repairs, least ≤ e.fromIndex) →
        let goal := Nat.min least (s.designLength - 1)
        (goal ≠ s.run.cursor →
          t = { s with
            portP := t.portP, arbiter := t.arbiter, walk := t.walk,
            run := { s.run with state := .walking, pass := .repair, outstanding := false },
            repairs := s.repairs.map fun e => { e with sewing := false, deferred := none } } ∧
          t.walk = some {
            requester := .repair, mode := .toIndex, goal := goal,
            direction := if goal < s.run.cursor then .back else .forward, cursor := s.run.cursor, design := s.run.design,
            colourBlock := s.run.colourBlock, stitches := 0, deferredSkips := [], listEmptied := false }) ∧
        (goal = s.run.cursor → t.walk = none ∧ t.run.cursor = goal ∧
          t.run.state = (if goal = s.designLength then .finished else .paused) ∧ placed s t goal ∧
          t.posted [(.walkDone, 0, BitVec.ofNat 32 (goal % 2 ^ 18))])) ∧
  (∀ (s : State) (w : WalkRecord) (port : Port), s.takesFrame port = true → s.run.state = .walking → s.walk = some w →
    w.requester = .repair → w.deferredSkips = [] → s.run.pass = .repair →
    ∃ t, exec (.stop port) s = .next t ∧ t.walk = none ∧ t.run.cursor = w.cursor ∧ placed s t w.cursor) ∧
  ∀ (s : State) (w : WalkRecord) (x : StoreRead), s.power ≠ .held → s.run.state = .walking → s.walk = some w →
    w.requester = .repair → w.mode = .toIndex → w.deferredSkips = [] → s.run.pass = .repair →
    s.arbiter.holder = some (.internal .walk) → s.arbiter.walk = .served x true → (s.chunk x.chunk).state = .complete →
    ∃ t, exec .walkReadDone s = .next t ∧
      ((s.chunk x.chunk).changed = [] → w.goal = (if w.direction = .back then w.cursor - 1 else w.cursor + 1) →
        t.walk = none ∧ t.run.cursor = w.goal ∧ placed s t w.goal) ∧
      ((s.chunk x.chunk).changed.length = 2 → t.walk = none ∧ t.run.cursor = w.cursor ∧ placed s t w.cursor)

/-- The Repair List at the executed cursor. In a REPAIR pass a completion marks the entries of ACTIVE heads that begin there,
removes the SKIP entries being sewn whose stretch is passed, and places the heads left with none being sewn again: ACTIVE
with an entry between the cursors, else WAITING for the least above, else RESTING; a list emptied below L asks for a stop
with reason REPAIR_DONE. At the completion of a COLOUR halt, SKIP entries open on the block it closes take its index as
to-index, and entries deferred to that block start after it; at the END record those open on the last block take L − 1, and
entries deferred to the last block go. -/
def Obligations.RepairPassRuns : Prop :=
  (∀ (s : State) (k : Token) (after : List Token), s.takesFrame .m = true → s.run.pass = .repair →
    (s.run.state = .running ∨ s.run.state = .stopping) → s.queue.issued = k :: after → k.lastOfRecord = true →
    k.kind ≠ .halt → k.reason = none → k.index + 1 < s.designLength →
    let steps := if k.kind = .step then 1 else 0
    steps < s.constants.motionLimit →
    (∀ h ∈ headNumbers, (s.head h).state = .active → (s.head h).noMotion + steps < s.constants.motionLimit) →
    (∀ e ∈ s.repairs, e.deferred = none ∧ (e.sewing = true → (s.head e.head).state = .active)) →
    let c := k.index + 1
    let marked := s.repairs.map fun e =>
      if (s.head e.head).state = .active ∧ e.fromIndex = c then { e with sewing := true } else e
    let sewn := fun e : RepairEntry => e.isSkip && e.sewing && (match e.toIndex with
      | some i => decide (i < c)
      | none => decide (e.toBlock.getD 0 < s.run.colourBlock))
    let left := marked.filter fun e => !sewn e
    ∃ t, exec (.done k.seq) s = .next t ∧ t.run.cursor = c ∧ t.repairs.Perm left ∧ t.events = s.events ∧
      (left ≠ [] ∨ s.run.stopReason = .memory ∧ s.run.state = .stopping →
        t.run.state = s.run.state ∧ t.run.stopReason = s.run.stopReason) ∧
      (left = [] → ¬ (s.run.stopReason = .memory ∧ s.run.state = .stopping) →
        t.run.state = .stopping ∧ t.run.stopReason = .repairDone) ∧
      ∀ h ∈ headNumbers,
        let loses := (∃ e ∈ marked, e.head = h ∧ sewn e = true) ∧ ∀ e ∈ left, e.head = h → e.sewing = false
        (¬ loses → (s.head h).state = .active → t.head h = { s.head h with noMotion := (s.head h).noMotion + steps }) ∧
        (¬ loses → (s.head h).state ≠ .active → t.head h = s.head h) ∧
        (loses → s.barred h = false →
          ((∃ e ∈ left, e.head = h ∧ c < e.fromIndex ∧ e.fromIndex ≤ s.seq.cursor) →
            (t.head h).state = .active ∧ (t.head h).joinIndex = some c) ∧
          ((∀ e ∈ left, e.head = h → e.fromIndex < c) →
            (t.head h).state = .resting ∧ (t.head h).joinIndex = none) ∧
          ∀ e ∈ left, e.head = h → c < e.fromIndex →
            (∀ f ∈ left, f.head = h → c < f.fromIndex → s.seq.cursor < f.fromIndex ∧ e.fromIndex ≤ f.fromIndex) →
            (t.head h).state = .waiting ∧ (t.head h).joinIndex = some e.fromIndex)) ∧
  ∀ (s : State) (k : Token) (after : List Token), s.takesFrame .m = true → s.run.state = .running →
    s.queue.issued = k :: after → k.lastOfRecord = true → k.kind = .halt →
    (∀ h ∈ headNumbers, (s.head h).state = .active → (s.head h).noMotion < s.constants.motionLimit) →
    (s.run.pass = .main ∨
      s.repairs ≠ [] ∧ ∀ e ∈ s.repairs, e.sewing = false ∧ (s.head e.head).state ≠ .active) →
    ∃ t, exec (.done k.seq) s = .next t ∧
      (k.reason = some .colour → k.index + 1 < s.designLength → (∃ h ∈ headNumbers, s.present h = true) →
        t.repairs.Perm (s.repairs.map fun e =>
          let fixed := if e.isSkip = true ∧ e.toIndex = none ∧ e.toBlock = some s.run.colourBlock then
            { e with toIndex := some k.index } else e
          if e.deferred = some s.run.colourBlock then { fixed with deferred := none, fromIndex := k.index + 1 } else fixed)) ∧
      (k.reason = some .endRecord → k.index + 1 = s.designLength →
        t.repairs.Perm ((s.repairs.filter fun e => !decide (e.deferred = some s.armedRecord.colourCount)).map fun e =>
          if e.isSkip = true ∧ e.toIndex = none ∧ e.toBlock = some s.armedRecord.colourCount then
            { e with toIndex := some k.index }
          else e))

/-- A break in a REPAIR pass, at the STEP that ends its record: the completion first moves the executed cursor past the record,
marks the entries of ACTIVE heads that begin there and removes the SKIP entries being sewn whose stretch is passed; a head
that is not placed again by that and reaches K is HELD_FAULT. The from-index of its entries being sewn rises to that of the
break, no lower than its join index and no higher than the executed cursor, and their marks are cleared; a FAULT entry not
being sewn takes it as it is, and keeps its cause (log 22), and where there is none one is placed. The inhibit check of a
REPAIR pass takes out a head being sewn: its SKIP entry to the block entered goes, its FAULT and farther SKIP entries are
deferred to that block, and it is given a SKIP entry for the block. A list emptied by HEAD_ON with the executed cursor below L
ends the pass: at once in PAUSED; in WALKING, where that is the cursor held before the walk, after the walk, by the walk's
mark, wherever the walk ends (log 10); at L it does nothing more. An absent join index sets no floor (log 9). -/
def Obligations.RepairPassFaultAndInhibit : Prop :=
  (∀ (s : State) (k : Token) (after : List Token), s.takesFrame .m = true → s.run.pass = .repair →
    (s.run.state = .running ∨ s.run.state = .stopping) → s.queue.issued = k :: after → k.kind = .step →
    k.lastOfRecord = true → k.reason = none → k.index + 1 < s.designLength →
    let c := k.index + 1
    let marked := s.repairs.map fun e =>
      if (s.head e.head).state = .active ∧ e.fromIndex = c then { e with sewing := true } else e
    let sewn := fun e : RepairEntry => e.isSkip && e.sewing && (match e.toIndex with
      | some i => decide (i < c)
      | none => decide (e.toBlock.getD 0 < s.run.colourBlock))
    let left := marked.filter fun e => !sewn e
    ∃ t, exec (.done k.seq) s = .next t ∧ t.run.cursor = c ∧
      ∀ h ∈ headNumbers,
        let placedAgain := (∃ e ∈ marked, e.head = h ∧ sewn e = true) ∧ ∀ e ∈ left, e.head = h → e.sewing = false
        let f := Nat.min (Nat.max ((s.head h).lastMotion - s.constants.backstep) ((s.head h).joinIndex.getD 0)) c
        let mine := left.filter fun e => decide (e.head = h)
        let moved := mine.map fun e =>
          if e.sewing = true then
            { e with fromIndex := Nat.max e.fromIndex f, sewing := false,
                     kind := if e.isFault = true then .fault .breakFault else e.kind }
          else if e.isFault = true then { e with fromIndex := f } else e
        (¬ placedAgain → (s.head h).state = .active → s.constants.motionLimit ≤ (s.head h).noMotion + 1 →
          t.head h = { s.head h with
            state := .heldFault, cause := some (.thread .breakFault), noMotion := s.constants.motionLimit } ∧
          (t.repairs.filter fun e => decide (e.head = h)).Perm
            (if mine.any (·.isFault) = true then moved
              else ⟨h, .fault .breakFault, f, none, none, none, false⟩ :: moved) ∧
          ((∀ g ∈ headNumbers, g ≠ h →
              ((s.head g).state = .active → (s.head g).noMotion + 1 < s.constants.motionLimit) ∧
              ∀ e ∈ marked, e.head = g → sewn e = false) →
            t.posted [(.threadBreak, h, BitVec.ofNat 32 (f % 2 ^ 18))])) ∧
        (¬ placedAgain → ¬ ((s.head h).state = .active ∧ s.constants.motionLimit ≤ (s.head h).noMotion + 1) →
          (t.repairs.filter fun e => decide (e.head = h)).Perm mine)) ∧
  (∀ (s : State) (c : ChangeRecord) (h : Nat), s.power ≠ .held → s.run.pass = .repair → s.run.state = .changing →
    s.change = some c → c.deadline.isSome = true → (∀ g ∈ c.confirm, g ∈ headNumbers) → h ∈ headNumbers → h ∉ c.confirm → (s.head h).state = .active →
    c.target ≠ 0 → (s.inhibitRow h).getLsbD c.target = true →
    (∀ g ∈ headNumbers, g ≠ h → (s.head g).state ≠ .active ∧ (s.head g).state ≠ .heldNeedle) →
    (s.repairs.filter (·.isSkip)).length < 24 →
    (∀ e ∈ s.repairs, e.head = h → e.isSkip = true →
      e.sewing = true ∧ e.toIndex = none ∧ ∃ b, e.toBlock = some b ∧ s.run.colourBlock ≤ b) →
    ∃ t, exec .changeDeadline s = .next t ∧ t.change = none ∧ t.run.needle = c.target ∧
      (t.head h).state = .heldNeedle ∧
      (t.repairs.filter fun e => decide (e.head = h)).Perm
        (⟨h, .skip, s.run.cursor, some s.run.colourBlock, none, none, false⟩ ::
          ((s.repairs.filter fun e => decide (e.head = h)).filter fun e =>
            !(e.sewing && e.isSkip && decide (e.toBlock = some s.run.colourBlock))).map fun e =>
              if e.sewing = true then { e with sewing := false, deferred := some s.run.colourBlock } else e) ∧
      ∀ g, g ≠ h → (t.repairs.filter fun e => decide (e.head = g)).Perm (s.repairs.filter fun e => decide (e.head = g))) ∧
  (∀ (s : State) (h : Nat), s.takesFrame .p = true → h ∈ headNumbers → (s.head h).state = .heldFault →
    s.barred h = false → s.run.pass = .repair → s.repairs ≠ [] → (∀ e ∈ s.repairs, e.head = h ∧ e.isFault = true) →
    (s.run.state = .paused ∨ s.run.state = .walking) →
    ∃ t, exec (.headOn h) s = .next t ∧ s.answers t .p .ok [] ∧ t.repairs = [] ∧ t.run.outstanding = false ∧
      (t.head h).state = .resting ∧ (t.head h).joinIndex = none ∧
      (s.run.cursor < s.designLength → s.run.state = .paused → t.run.state = .finished ∧ t.posted [(.repairDone, 0, 0)]) ∧
      (s.run.cursor < s.designLength → s.run.state = .walking → t.run.state = .walking ∧ t.events = s.events ∧
        t.walk = s.walk.map fun w => { w with listEmptied := true }) ∧
      (s.designLength ≤ s.run.cursor → t.run.state = s.run.state ∧ t.events = s.events ∧ t.walk = s.walk)) ∧
  ∀ (s : State) (port : Port) (w : WalkRecord), s.takesFrame port = true → s.run.state = .walking → s.walk = some w →
    w.deferredSkips = [] → s.repairs = [] → s.run.pass = .repair →
    ∃ t, exec (.stop port) s = .next t ∧ t.walk = none ∧ t.run.cursor = w.cursor ∧
      if w.listEmptied = true then
        t.run.state = .finished ∧
        t.posted [(.walkDone, 0, BitVec.ofNat 32 (2 * 2 ^ 24 + w.cursor % 2 ^ 18)), (.repairDone, 0, 0)]
      else
        t.run.state = (if w.cursor = s.designLength then .finished else .paused) ∧
        t.posted [(.walkDone, 0, BitVec.ofNat 32 (2 * 2 ^ 24 + w.cursor % 2 ^ 18))]

/-! ### The head ring and the colour change (chapters 7 and 8) -/

/-- The next transaction: none on a DOWN ring; on a FULL or SPLIT ring the oldest request of the queue, which leaves it, or,
where the queue is empty, a round-robin POLL of the next head above the poll pointer, counting past 24 back to 1, that is
neither ABSENT nor LOST; a unicast on the end of its head's path, a selection on end A and, on a SPLIT ring or where a head
has switched, on end B too; the enumeration sends its ASSIGN. A recovery POLL whose head is no longer LOST is removed and
not sent, and the step is as if it had not stood there; one whose head has no path is removed and ends at once as a miss,
with no transaction; where the step ends in these two cases is the model's choice (log 39). The frame sent carries the
request in the bits of R170. -/
def Obligations.RingSendsOldestRequestOrPoll : Prop :=
  (∀ r : RingRequest, r.head < 32 → r.data < 65536 →
    (requestFrame r).getLsbD 31 = false ∧ ((requestFrame r).extractLsb' 26 5).toNat = r.head ∧
    ((requestFrame r).extractLsb' 23 3).toNat = r.function.code ∧ ((requestFrame r).extractLsb' 7 16).toNat = r.data ∧
    (requestFrame r).extractLsb' 0 7 = crc7 ((requestFrame r).extractLsb' 7 25)) ∧
  ∀ s : State, s.power ≠ .held → s.ring.flight = none →
    let sent := fun (r : RingRequest) (e : RingEnd) (both polled ofChange : Bool) =>
      some { request := r, frame := requestFrame r, ringEnd := e, bothEnds := both, roundRobin := polled,
             afterSelection := s.selectionSent, ofChange := ofChange, headLost := false, discarded := false }
    (s.ring.state = .down → exec .ringTransactionStart s = .next s) ∧
    (s.ring.state = .full ∨ s.ring.state = .split →
      (s.ring.requests = [] → (∀ h ∈ headNumbers, s.present h = false) → exec .ringTransactionStart s = .next s) ∧
      (s.ring.requests = [] → ∀ h ∈ headNumbers, s.present h = true →
        (∀ g ∈ headNumbers, s.present g = true →
          if s.ring.pollPointer < h then ¬ (s.ring.pollPointer < g ∧ g < h)
          else g ≤ s.ring.pollPointer ∧ h ≤ g) →
        exec .ringTransactionStart s = .next { s with ring := { s.ring with
          pollPointer := h, flight := sent ⟨.poll, h, 0⟩ ((s.ringRecord h).path.getD .a) false true false } }) ∧
      (∀ r rest, s.ring.requests = r :: rest → r.head ≠ 31 → r.function ≠ .poll →
        exec .ringTransactionStart s = .next { s with ring := { s.ring with
          requests := rest, flight := sent r ((s.ringRecord r.head).path.getD .a) false false false } }) ∧
      (∀ r rest, s.ring.requests = r :: rest → r.head = 31 →
        exec .ringTransactionStart s = .next { s with ring := { s.ring with
          requests := rest,
          flight := sent r .a
            (decide (s.ring.state = .split) || headNumbers.any fun h =>
              s.present h && (s.ringRecord h).switched && decide ((s.ringRecord h).path = some .b))
            false s.change.isSome } }) ∧
      (∀ r rest, s.ring.requests = r :: rest → r.head ≠ 31 → r.function = .poll → (s.head r.head).state = .lost →
        (∀ e, (s.ringRecord r.head).path = some e → exec .ringTransactionStart s = .next { s with ring := { s.ring with
          requests := rest, flight := sent r e false false false } }) ∧
        ((s.ringRecord r.head).path = none → ∃ t, exec .ringTransactionStart s = .next t ∧
          t = { s with ring := { s.ring with requests := rest }, events := t.events } ∧
          ((s.classOf 4).log = true → ∃ e, t.events.getLast? = some e ∧ e.kind = .headLost ∧ e.head = r.head))) ∧
      (∀ r rest, s.ring.requests = r :: rest → r.head ≠ 31 → r.function = .poll → (s.head r.head).state ≠ .lost →
        exec .ringTransactionStart s =
          exec .ringTransactionStart { s with ring := { s.ring with requests := rest } })) ∧
    (s.ring.state = .enumerating → ∀ e, s.ring.enumeration = some e → ∃ t f, exec .ringTransactionStart s = .next t ∧
      t = { s with ring := { s.ring with flight := some f } } ∧
      match e.phase with
      | .broadcast => f.request = ⟨.assign, 31, 0⟩ ∧ f.ringEnd = .a ∧ f.bothEnds = true
      | .fromA k => f.request = ⟨.assign, k, k⟩ ∧ f.ringEnd = .a ∧ f.bothEnds = false
      | .fromB k => f.request = ⟨.assign, k, k⟩ ∧ f.ringEnd = .b ∧ f.bothEnds = false)

/-- An answer that is not good to the unicast in flight is discarded. A good one to a POLL, PRESSER or LAMP of a head that is
not LOST ends the transaction, zeroes the miss count and is acted on: needle and presser, BOBBIN_LOW, THREAD_MOVED and the
tension count, a TENSION fault at Q, BOARD_FAULT, and the confirmation of a change. A good answer to an ASSIGN finds the
head. -/
def Obligations.GoodAnswerIsActedOn : Prop :=
  ∀ (s : State) (e : RingEnd) (w : RingWord), s.power ≠ .held →
    ((∀ f, s.ring.flight = some f → f.request.head = 31 ∨ goodAnswer f e w = false) →
      exec (.ringAnswer e w) s = .next s) ∧
    ∀ f, s.ring.flight = some f → f.request.head ≠ 31 → goodAnswer f e w = true → f.discarded = false →
      let h := f.request.head
      (f.request.function ≠ .assign → f.headLost = false → (f.request.function = .poll → f.roundRobin = true) →
        (s.head h).state ≠ .lost →
        ∃ t, exec (.ringAnswer e w) s = .next t ∧ t.ring.flight = none ∧ (t.ringRecord h).misses = 0 ∧
          (t.head h).needle = answerNeedle w ∧ (t.head h).presserUp = answerPresserUp w ∧
          (s.change = none → answerBoardFault w = false → answerTensionHigh w = false → answerHeadSwitch w = false →
            t = { s with ring := t.ring, heads := t.heads, events := t.events } ∧
            (∀ g, g ≠ h → t.head g = s.head g) ∧
            t.head h = { s.head h with
              needle := answerNeedle w, presserUp := answerPresserUp w, bobbinWarned := answerBobbinLow w,
              noMotion := if (s.head h).state = .active ∧ answerThreadMoved w = true then 0 else (s.head h).noMotion,
              lastMotion := if (s.head h).state = .active ∧ answerThreadMoved w = true then s.run.cursor
                else (s.head h).lastMotion,
              tension := if (s.head h).state = .active then 0 else (s.head h).tension } ∧
            (answerBobbinLow w = false ∨ (s.head h).bobbinWarned = true → t.events = s.events) ∧
            (answerBobbinLow w = true → (s.head h).bobbinWarned = false → (s.classOf 3).log = true →
              ∃ v, t.events.getLast? = some v ∧ v.kind = .bobbinLow ∧ v.head = h)) ∧
          (s.change = none → answerBoardFault w = true →
            (t.head h).state = .lost ∧ (t.head h).cause = some (.loss .board) ∧ (∀ r ∈ t.ring.requests, r.head ≠ h) ∧
            ((s.classOf 4).log = true → ∃ v, t.events.getLast? = some v ∧ v.kind = .headLost ∧ v.head = h ∧ v.param = 2) ∧
            t.run.state = (if (s.head h).state = .active ∧ s.run.state = .running then .stopping else s.run.state)) ∧
          (s.change = none → answerBoardFault w = false → answerTensionHigh w = true → answerHeadSwitch w = false →
            (s.head h).state = .active → s.run.pass = .main →
            ((s.head h).tension + 1 < s.constants.tensionLimit →
              (t.head h).state = .active ∧ (t.head h).tension = (s.head h).tension + 1 ∧ t.repairs = s.repairs) ∧
            (s.constants.tensionLimit ≤ (s.head h).tension + 1 →
              (t.head h).state = .heldFault ∧ (t.head h).cause = some (.thread .tension) ∧
              ∃ x ∈ t.repairs, x.head = h ∧ x.kind = .fault .tension ∧ x.toIndex = none ∧
                x.fromIndex = if s.run.state = .idle ∨ s.run.state = .arming then 0
                  else s.run.cursor - s.constants.backstep)) ∧
          (∀ c, s.change = some c → s.run.state = .changing → answerBoardFault w = false → answerTensionHigh w = false →
            answerHeadSwitch w = false →
            (¬ (c.selectionSent = true ∧ f.afterSelection = true ∧ h ∈ c.confirm ∧ answerNeedle w = c.target ∧
              answerSettled w = true) → t.change = s.change ∧ t.run = s.run) ∧
            (c.selectionSent = true → f.afterSelection = true → h ∈ c.confirm → answerNeedle w = c.target →
              answerSettled w = true →
              ((∃ g ∈ c.confirm, g ≠ h) →
                t.change = some { c with confirm := c.confirm.filter fun g => decide (g ≠ h) } ∧ t.run = s.run) ∧
              ((∀ g ∈ c.confirm, g = h) → t.change = none ∧ t.run.needle = c.target ∧ t.run.state ≠ .changing)))) ∧
      (f.request.function = .assign → ∀ n, s.ring.enumeration = some n → ∃ t, exec (.ringAnswer e w) s = .next t ∧
        t.ring.flight = none ∧
        (∀ k, n.phase = .fromA k → n.foundA + 1 ≠ s.constants.nHeads →
          t.ring.enumeration = some { n with foundA := n.foundA + 1, phase := .fromA (k + 1) } ∧ t.heads = s.heads) ∧
        (∀ k, n.phase = .fromA k → n.foundA + 1 = s.constants.nHeads →
          t.ring.enumeration = none ∧ t.ring.state = .full ∧ ∀ g ∈ headNumbers,
            (t.head g).state = if s.constants.nHeads < g then .absent
              else if s.barred g = true then .heldNeedle else .active) ∧
        (∀ k, n.phase = .fromB k → n.foundA + 1 < k →
          t.ring.enumeration = some { n with foundB := n.foundB + 1, phase := .fromB (k - 1) } ∧ t.heads = s.heads) ∧
        (∀ k, n.phase = .fromB k → k ≤ n.foundA + 1 → n.foundA < s.constants.nHeads →
          t.ring.enumeration = none ∧ t.ring.state = .split))

/-- The outcome of a transaction that RING_START has discarded, or whose head has become LOST meanwhile, changes nothing but
that the ring is free. The recovery POLL of a LOST head, answered without BOARD_FAULT, brings it to HELD_FAULT with the cause
of its FAULT entry, else to HELD_NEEDLE where its needle is inhibited, else to HELD_OPERATOR in RUNNING, STOPPING or CHANGING,
else in a MAIN pass to ACTIVE; answered with BOARD_FAULT it stays LOST with cause BOARD, and no request is removed; missed, it
stays LOST with its cause. The latter two post HEAD_LOST. -/
def Obligations.RecoveryPollsAndStaleOutcomes : Prop :=
  (∀ (s : State) (f : Transaction), s.power ≠ .held → s.ring.flight = some f →
    let freed := Host.Outcome.next { s with ring := { s.ring with flight := none } }
    (f.request.head ≠ 31 → f.discarded = true ∨ f.headLost = true ∧ f.request.function ≠ .assign →
      exec .ringTimeout s = freed ∧ ∀ e w, goodAnswer f e w = true → exec (.ringAnswer e w) s = freed) ∧
    (f.request.head = 31 → f.discarded = true → exec .broadcastSent s = freed)) ∧
  ∀ (s : State) (f : Transaction), s.power ≠ .held → s.ring.flight = some f → f.request.head ≠ 31 →
    f.discarded = false → f.headLost = false → f.request.function = .poll → f.roundRobin = false →
    let h := f.request.head
    (∀ e w, goodAnswer f e w = true → ∃ t, exec (.ringAnswer e w) s = .next t ∧ t.ring.flight = none ∧
      (t.ringRecord h).misses = 0 ∧ (t.head h).needle = answerNeedle w ∧ (t.head h).presserUp = answerPresserUp w ∧
      (∀ g, g ≠ h → t.head g = s.head g) ∧ t.change = s.change ∧
      (answerBoardFault w = true →
        t = { s with ring := t.ring, heads := t.heads, events := t.events } ∧ t.ring.requests = s.ring.requests ∧
        (t.head h).state = .lost ∧ (t.head h).cause = some (.loss .board) ∧ t.posted [(.headLost, h, 2)]) ∧
      (answerBoardFault w = false → t.events = s.events ∧
        (∀ cause, (∃ x ∈ s.repairs, x.head = h ∧ x.isFault = true) →
          (∀ x ∈ s.repairs, x.head = h → x.isFault = true → x.kind = .fault cause) →
          t = { s with ring := t.ring, heads := t.heads } ∧
          (t.head h).state = .heldFault ∧ (t.head h).cause = some (.thread cause)) ∧
        ((∀ x ∈ s.repairs, x.head = h → x.isFault = false) →
          (s.barred h = true → t = { s with ring := t.ring, heads := t.heads } ∧
            (t.head h).state = .heldNeedle ∧ (t.head h).cause = none) ∧
          (s.barred h = false → s.run.state = .running ∨ s.run.state = .stopping ∨ s.run.state = .changing →
            t = { s with ring := t.ring, heads := t.heads } ∧ (t.head h).state = .heldOperator ∧ (t.head h).cause = none) ∧
          (s.barred h = false → s.run.state ≠ .running → s.run.state ≠ .stopping → s.run.state ≠ .changing →
            s.run.pass = .main →
            t = { s with ring := t.ring, heads := t.heads } ∧ (t.head h).state = .active ∧ (t.head h).cause = none ∧
            (t.head h).noMotion = 0 ∧ (t.head h).tension = 0 ∧ (t.head h).lastMotion = s.run.cursor)))) ∧
    ∃ t, exec .ringTimeout s = .next t ∧ t = { s with ring := { s.ring with flight := none }, events := t.events } ∧
      ∀ c, (s.head h).cause = some (.loss c) → t.posted [(.headLost, h,
        match c with | .ring => 0 | .needle => 1 | .board => 2 | .absentAtStart => 3)]

/-- A unicast that times out is a miss: the miss count rises, and a PRESSER or LAMP goes back to the tail of the queue
unless one for the head is queued; the third miss switches the path to end B on a FULL ring not yet switched, with
RING_PATH, and otherwise makes the head LOST with cause RING; during a change that head leaves the confirm set, and the last
to leave it completes the change. An ASSIGN from end A that misses turns the enumeration to end B. -/
def Obligations.MissIsCountedAndThirdActs : Prop :=
  ∀ (s : State) (f : Transaction), s.power ≠ .held → s.ring.flight = some f → f.request.head ≠ 31 → f.discarded = false →
    let h := f.request.head
    let back := f.request.function ≠ .poll ∧
      ¬ ∃ q ∈ s.ring.requests, q.function = f.request.function ∧ q.head = h
    let queue := if back then s.ring.requests ++ [f.request] else s.ring.requests
    (f.request.function ≠ .assign → f.headLost = false → (f.request.function = .poll → f.roundRobin = true) →
      ∃ t, exec .ringTimeout s = .next t ∧ t.ring.flight = none ∧
        ((s.ringRecord h).misses + 1 < 3 → t = { s with ring := t.ring } ∧ t.ring.requests = queue ∧
          t.ringRecord h = { s.ringRecord h with misses := (s.ringRecord h).misses + 1 }) ∧
        (3 ≤ (s.ringRecord h).misses + 1 → s.ring.state = .full → (s.ringRecord h).switched = false →
          t = { s with ring := t.ring, events := t.events } ∧ t.ring.requests = queue ∧ t.ring.state = .full ∧
          t.ringRecord h = { path := some .b, switched := true, misses := 0 } ∧
          ((s.classOf 6).log = true → ∃ v, t.events.getLast? = some v ∧ v.kind = .ringPath ∧ v.head = h ∧ v.param = 1)) ∧
        (3 ≤ (s.ringRecord h).misses + 1 → (s.ring.state ≠ .full ∨ (s.ringRecord h).switched = true) →
          (t.head h).state = .lost ∧ (t.head h).cause = some (.loss .ring) ∧ (t.ringRecord h).misses = 0 ∧
          (∀ r ∈ t.ring.requests, r.head ≠ h) ∧
          (s.change = none →
            ((s.classOf 4).log = true → ∃ v, t.events.getLast? = some v ∧ v.kind = .headLost ∧ v.head = h ∧ v.param = 0) ∧
            t.run.state = (if (s.head h).state = .active ∧ s.run.state = .running then .stopping else s.run.state)) ∧
          ∀ c, s.change = some c → s.run.state = .changing →
            ((∃ g ∈ c.confirm, g ≠ h) →
              t.change = some { c with confirm := c.confirm.filter fun g => decide (g ≠ h) } ∧
              t.run.state = .changing ∧ t.run.needle = s.run.needle ∧ t.posted [(.headLost, h, 0)]) ∧
            ((∀ g ∈ c.confirm, g = h) →
              t.change = none ∧ t.run.needle = c.target ∧ (t.run.state = .running ∨ t.run.state = .paused)))) ∧
    (f.request.function = .assign → ∀ n k, s.ring.enumeration = some n → n.phase = .fromA k →
      exec .ringTimeout s = .next { s with ring := { s.ring with
        flight := none, enumeration := some { n with phase := .fromB s.constants.nHeads } } })

/-- The end of the SELECT_NEEDLE broadcast of the present change marks the selection sent and sets the deadline T_CC later;
the end of the broadcast ASSIGN turns to ASSIGN(1) from end A; no other state changes. When the deadline expires, every
head still to confirm is LOST with cause NEEDLE, and the change completes on its target needle. -/
def Obligations.SelectionSentThenDeadline : Prop :=
  (∀ (s : State) (f : Transaction), s.power ≠ .held → s.ring.flight = some f → f.request.head = 31 →
    f.discarded = false →
    (f.request.function ≠ .assign → f.ofChange = true → ∀ c, s.change = some c →
      exec .broadcastSent s = .next { s with
        ring := { s.ring with flight := none },
        change := some { c with selectionSent := true, deadline := some s.constants.changeTime } }) ∧
    (f.request.function = .assign → ∀ n, s.ring.enumeration = some n →
      exec .broadcastSent s = .next { s with
        ring := { s.ring with flight := none, enumeration := some { n with phase := .fromA 1 } } })) ∧
  ∀ (s : State) (c : ChangeRecord), s.power ≠ .held → s.change = some c → c.deadline.isSome = true →
    s.run.state = .changing → (∀ h ∈ c.confirm, h ∈ headNumbers) →
    ∃ t, exec .changeDeadline s = .next t ∧ t.change = none ∧ t.run.needle = c.target ∧
      (t.run.state = .running ∨ t.run.state = .paused) ∧
      (∀ h ∈ c.confirm, (t.head h).state = .lost ∧ (t.head h).cause = some (.loss .needle)) ∧
      (∀ h ∈ headNumbers, h ∉ c.confirm → (s.head h).state = .active →
        (t.head h).state = if c.target ≠ 0 ∧ (s.inhibitRow h).getLsbD c.target = true then .heldNeedle else .active)

/-- A change completes, here at its deadline in a MAIN pass: an ACTIVE head on which the new needle is inhibited becomes
HELD_NEEDLE and a HELD_NEEDLE head on which it is not becomes ACTIVE, presser and lamp queued; each head held is given a SKIP
entry from the executed cursor to the end of the colour block, while the share of 24 has room. Then the first row of the
resume decision that applies sets run state, stop reason and event, and CHANGE_DONE is posted. A head that reports BOARD_FAULT
during a change leaves the confirm set, and the last to leave it completes the change. -/
def Obligations.InhibitCheckAndResume : Prop :=
  (∀ (s : State) (c : ChangeRecord), s.power ≠ .held → s.run.pass = .main → s.run.state = .changing →
    s.change = some c → c.deadline.isSome = true → (∀ h ∈ c.confirm, h ∈ headNumbers) →
    let barred := fun h : Nat => decide (c.target ≠ 0) && (s.inhibitRow h).getLsbD c.target
    let held := headNumbers.filter fun h => !c.confirm.contains h && barred h &&
      (decide ((s.head h).state = .active) || decide ((s.head h).state = .heldNeedle))
    let sews := headNumbers.any fun h => !c.confirm.contains h && (decide ((s.head h).state = .waiting) ||
      !barred h && (decide ((s.head h).state = .active) || decide ((s.head h).state = .heldNeedle)))
    let skips := (s.repairs.filter (·.isSkip)).length
    let done : EventKind × Nat × BitVec 32 := (.changeDone, 0, BitVec.ofNat 32 (c.target % 16))
    ∃ t, exec .changeDeadline s = .next t ∧ t.change = none ∧ t.run.needle = c.target ∧ t.run.cursor = s.run.cursor ∧
      (∀ h ∈ headNumbers, h ∈ c.confirm →
        t.head h = { s.head h with state := .lost, cause := some (.loss .needle) }) ∧
      (∀ h ∈ headNumbers, h ∉ c.confirm →
        ((s.head h).state = .active → barred h = true →
          t.head h = { s.head h with state := .heldNeedle, cause := none } ∧
          ((s.ring.state = .full ∨ s.ring.state = .split) →
            ⟨.presser, h, 1⟩ ∈ t.ring.requests ∧ ⟨.lamp, h, 2⟩ ∈ t.ring.requests)) ∧
        ((s.head h).state = .heldNeedle → barred h = false →
          t.head h = { s.head h with state := .active, cause := none, noMotion := 0, tension := 0,
                                     lastMotion := s.run.cursor } ∧
          ((s.ring.state = .full ∨ s.ring.state = .split) →
            ⟨.presser, h, 0⟩ ∈ t.ring.requests ∧ ⟨.lamp, h, 1⟩ ∈ t.ring.requests)) ∧
        (((s.head h).state = .active → barred h = false) → ((s.head h).state = .heldNeedle → barred h = true) →
          t.head h = s.head h)) ∧
      (sews = false →
        t.run.state = .paused ∧ t.run.stopReason = .noHeads ∧ t.posted [(.noHeads, 0, BitVec.ofNat 32 (c.target % 16)), done]) ∧
      ((∀ e ∈ s.repairs, e.head ∈ held → e.isSkip = false) →
        (24 ≤ skips → t.repairs = s.repairs ∧
          ∀ h rest, held = h :: rest → sews = true →
            t.run.state = .paused ∧ t.run.stopReason = .repairListFull ∧
            t.posted [(.repairListFull, h, BitVec.ofNat 32 (s.run.colourBlock % 256)), done]) ∧
        (skips + held.length ≤ 24 →
          t.repairs.Perm ((held.map fun h => ⟨h, .skip, s.run.cursor, some s.run.colourBlock, none, none, false⟩) ++
            s.repairs) ∧
          (sews = true → match c.action with
            | .stop => t.run.state = .paused ∧ t.run.stopReason = .colourStop ∧
                t.posted [(.colourStop, 0, BitVec.ofNat 32 (s.run.colourBlock % 256 * 256 + c.target % 16)), done]
            | .pause => t.run.state = .paused ∧ t.run.stopReason = s.run.stopReason ∧
                t.posted [(.runStopped, 0, BitVec.ofNat 32 (s.run.stopReason.code % 16)), done]
            | _ => t.run.state = .running ∧ t.run.stopReason = s.run.stopReason ∧ t.seq.ramp = s.constants.ramp ∧
                t.posted [done])))) ∧
  ∀ (s : State) (f : Transaction) (e : RingEnd) (w : RingWord) (c : ChangeRecord), s.power ≠ .held →
    s.ring.flight = some f → f.request.head ≠ 31 → goodAnswer f e w = true → f.discarded = false → f.headLost = false →
    f.request.function ≠ .assign → (f.request.function = .poll → f.roundRobin = true) →
    (s.head f.request.head).state ≠ .lost → answerBoardFault w = true → answerSettled w = false →
    s.change = some c → s.run.state = .changing → f.request.head ∈ c.confirm →
    ∃ t, exec (.ringAnswer e w) s = .next t ∧
      ((∃ g ∈ c.confirm, g ≠ f.request.head) →
        t.change = some { c with confirm := c.confirm.filter fun g => decide (g ≠ f.request.head) } ∧
        t.run.state = .changing ∧ t.run.needle = s.run.needle ∧ t.posted [(.headLost, f.request.head, 2)]) ∧
      ((∀ g ∈ c.confirm, g = f.request.head) →
        t.change = none ∧ t.run.needle = c.target ∧ (t.run.state = .running ∨ t.run.state = .paused))

/-- RING_START is refused with STATE outside IDLE and with BUSY while ENUMERATING; taken, it starts the enumeration over: every
head ABSENT, every ring record, the request queue and the Repair List empty, and the outcome of a transaction in flight to be
discarded. The enumeration ends with the answer of ASSIGN(N_HEADS) from end A, with a miss from end B, or where the next
head from end B would be one found from end A: FULL where all are found from end A, else SPLIT; the heads found are ACTIVE or
HELD_NEEDLE on their path with presser and lamp queued, those missing to N_HEADS LOST with cause ABSENT_AT_START, those above
ABSENT, and RING_DONE is posted with both counts. -/
def Obligations.RingStartBeginsEnumeration : Prop :=
  (∀ s : State, s.takesFrame .p = true → ∃ t, exec .ringStart s = .next t ∧
    if s.run.state ≠ .idle then s.onlyPort t .p ∧ s.answers t .p .state []
    else if s.ring.state = .enumerating then s.onlyPort t .p ∧ s.answers t .p .busy []
    else
      s.answers t .p .accepted [] ∧
      t = { s.loseReply .p with
        portP := t.portP, ring := t.ring, heads := t.heads, repairs := [], run := { s.run with outstanding := false } } ∧
      t.ring = {
        state := .enumerating, requests := [], flight := s.ring.flight.map (fun f => { f with discarded := true }),
        pollPointer := 0, enumeration := some ⟨.broadcast, 0, 0⟩, records := [] } ∧
      (∀ h ∈ headNumbers, t.head h = { s.head h with state := .absent, cause := none }) ∧
      ∀ h, h ∉ headNumbers → t.head h = s.head h) ∧
  ∀ (s : State) (f : Transaction) (n : Enumeration), s.power ≠ .held → s.ring.flight = some f → f.request.head ≠ 31 →
    f.discarded = false → f.request.function = .assign → s.ring.enumeration = some n →
    let heads := s.constants.nHeads
    let ends := fun (nA nB : Nat) (t : State) =>
      let path := fun h : Nat => if h ≤ nA then some RingEnd.a else if heads - nB < h ∧ h ≤ heads then some .b else none
      t = { s with ring := t.ring, heads := t.heads, events := t.events } ∧ t.ring.flight = none ∧
      t.ring.enumeration = none ∧ t.ring.state = (if nA = heads then .full else .split) ∧
      t.posted [(.ringDone, 0, BitVec.ofNat 32 (nA % 256 * 256 + nB % 256))] ∧
      (s.ring.requests = [] → t.ring.requests =
        (headNumbers.filter fun h => (path h).isSome).flatMap fun h =>
          if s.barred h = true then [⟨.presser, h, 1⟩, ⟨.lamp, h, 2⟩] else [⟨.presser, h, 0⟩, ⟨.lamp, h, 1⟩]) ∧
      ∀ h ∈ headNumbers,
        match path h with
        | some e => t.ringRecord h = { s.ringRecord h with path := some e } ∧ (t.head h).cause = none ∧
            if s.barred h = true then (t.head h).state = .heldNeedle
            else (t.head h).state = .active ∧ (t.head h).noMotion = 0 ∧ (t.head h).tension = 0 ∧
              (t.head h).lastMotion = s.run.cursor
        | none => t.ringRecord h = s.ringRecord h ∧
            if h ≤ heads then (t.head h).state = .lost ∧ (t.head h).cause = some (.loss .absentAtStart)
            else (t.head h).state = .absent ∧ (t.head h).cause = none
    (∀ k, n.phase = .fromB k → ∃ t, exec .ringTimeout s = .next t ∧ ends n.foundA n.foundB t) ∧
    ∀ e w, goodAnswer f e w = true →
      (∀ k, n.phase = .fromA k → n.foundA + 1 = heads →
        ∃ t, exec (.ringAnswer e w) s = .next t ∧ ends (n.foundA + 1) n.foundB t) ∧
      (∀ k, n.phase = .fromB k → k ≤ n.foundA + 1 →
        ∃ t, exec (.ringAnswer e w) s = .next t ∧ ends n.foundA (n.foundB + 1) t)

/-! ### Heads (chapters 7 and 9) -/

/-- SET_INHIBIT replaces the row of a head 1..24 by a set of needles 1..15 and nothing else, but that an ACTIVE head whose
row then holds the machine needle becomes HELD_NEEDLE, with its presser and lamp offered; nothing beside that head, the ring
queue, the Repair List, the walk's deferred entries and an event changes. In ARMED, RUNNING, STOPPING and PAUSED it is given
a SKIP entry from the executed cursor to the end of the current colour block while the share has room; one SKIP entry of the
head that ends just before the cursor is extended to that block instead, and one open on that block is taken back to the
cursor where it begins above it (two entries that qualify: log 34, not stated here). In WALKING the entry is made when the
walk ends, from the cursor and to the block it reached; that it is made whatever the state of the head has become since is
the model's reading (log 20). In IDLE, ARMING, CHANGING, FINISHED and FAULT there is none. In a REPAIR pass the entries of
the head lose their mark as it leaves ACTIVE, and start no earlier than the executed cursor. -/
def Obligations.SetInhibitHoldsBarredHead : Prop :=
  let single := fun (l : List RepairEntry) (h c b : Nat) (full : Prop) (after : List RepairEntry) =>
    ((∀ e ∈ l, e.head = h → e.isSkip = false) → (l.filter (·.isSkip)).length < 24 →
      after.Perm (⟨h, .skip, c, some b, none, none, false⟩ :: l)) ∧
    ((∀ e ∈ l, e.head = h → e.isSkip = false) → 24 ≤ (l.filter (·.isSkip)).length → after.Perm l ∧ full) ∧
    ∀ e rest, l.Perm (e :: rest) → e.head = h → e.isSkip = true → (∀ x ∈ rest, x.head = h → x.isSkip = false) →
      (∀ i, e.toIndex = some i → i + 1 = c → after.Perm ({ e with toBlock := some b, toIndex := none } :: rest)) ∧
      (e.toIndex = none → e.toBlock = some b → after.Perm ({ e with fromIndex := Nat.min e.fromIndex c } :: rest)) ∧
      ((∀ i, e.toIndex = some i → i + 1 ≠ c) → (e.toIndex = none → e.toBlock ≠ some b) →
        ((l.filter (·.isSkip)).length < 24 → after.Perm (⟨h, .skip, c, some b, none, none, false⟩ :: l)) ∧
        (24 ≤ (l.filter (·.isSkip)).length → after.Perm l ∧ full))
  (∀ (s : State) (h : Nat) (row : BitVec 16), s.takesFrame .p = true → ∃ t, exec (.setInhibit h row) s = .next t ∧
    if h = 0 ∨ 24 < h ∨ row.getLsbD 0 = true then s.onlyPort t .p ∧ s.answers t .p .range []
    else
      s.answers t .p .ok [] ∧ t.inhibitRow h = row ∧ (∀ g, g ≠ h → t.inhibitRow g = s.inhibitRow g ∧ t.head g = s.head g) ∧
      if s.run.needle ≠ 0 ∧ row.getLsbD s.run.needle = true ∧ (s.head h).state = .active then
        let kept := s.repairs.map fun e =>
          if s.run.pass = .repair ∧ e.head = h ∧ e.sewing = true then
            { e with sewing := false, fromIndex := Nat.max e.fromIndex s.run.cursor } else e
        t = { s.loseReply .p with
          portP := t.portP, inhibit := t.inhibit, heads := t.heads, ring := { s.ring with requests := t.ring.requests },
          repairs := t.repairs, walk := t.walk, events := t.events,
          run := { s.run with outstanding := s.run.outstanding && !(decide (s.run.pass = .repair) && s.repairs.isEmpty) } } ∧
        t.head h = { s.head h with state := .heldNeedle, cause := none } ∧
        ((s.ring.state = .full ∨ s.ring.state = .split) →
          ⟨.presser, h, 1⟩ ∈ t.ring.requests ∧ ⟨.lamp, h, 2⟩ ∈ t.ring.requests) ∧
        (s.run.state ≠ .walking → t.walk = s.walk) ∧
        (s.run.state = .armed ∨ s.run.state = .running ∨ s.run.state = .stopping ∨ s.run.state = .paused →
          single kept h s.run.cursor s.run.colourBlock
            (t.posted [(.repairListFull, h, BitVec.ofNat 32 (s.run.colourBlock % 256))]) t.repairs ∧
          ((kept.filter (·.isSkip)).length < 24 → t.events = s.events)) ∧
        (s.run.state = .idle ∨ s.run.state = .arming ∨ s.run.state = .changing ∨ s.run.state = .finished ∨
            s.run.state = .fault ∨ s.run.state = .walking →
          t.repairs.Perm kept ∧ t.events = s.events) ∧
        (s.run.state = .walking → ∀ w, s.walk = some w → ∃ l, t.walk = some { w with deferredSkips := l } ∧
          ∀ g, g ∈ l ↔ g = h ∨ g ∈ w.deferredSkips)
      else t = { s.loseReply .p with portP := t.portP, inhibit := t.inhibit }) ∧
  ∀ (s : State) (port : Port) (w : WalkRecord) (h : Nat), s.takesFrame port = true → s.run.state = .walking →
    s.walk = some w → w.requester = .walk → h ∈ headNumbers → (∀ g, g ∈ w.deferredSkips ↔ g = h) →
    ∃ t, exec (.stop port) s = .next t ∧ t.walk = none ∧ t.run.cursor = w.cursor ∧ t.run.colourBlock = w.colourBlock ∧
      t.heads = s.heads ∧
      single s.repairs h w.cursor w.colourBlock
        (t.posted [(.repairListFull, h, BitVec.ofNat 32 (w.colourBlock % 256)),
          (.walkDone, 0, BitVec.ofNat 32 (2 * 2 ^ 24 + w.cursor % 2 ^ 18))]) t.repairs

/-- HEAD_OFF and HEAD_ON are tested in their order. HEAD_OFF makes an ACTIVE head HELD_OPERATOR; HEAD_ON leaves an ACTIVE
head, offers a recovery POLL for a LOST one, and in a MAIN pass makes a held head ACTIVE with fresh counts, a HELD_FAULT
head losing its FAULT entry. HEAD_SWITCH in an answer takes an ACTIVE head out, brings a HELD_OPERATOR head back in a MAIN pass
unless the run is RUNNING or STOPPING or the machine needle is inhibited on it, and is otherwise refused; its event says which,
and it neither stops the run nor makes an entry. -/
def Obligations.HeadOffAndOn : Prop :=
  (∀ (s : State) (h : Nat), s.takesFrame .p = true →
    (∃ t, exec (.headOff h) s = .next t ∧
      if h = 0 ∨ 24 < h then s.onlyPort t .p ∧ s.answers t .p .range []
      else if (s.head h).state ≠ .active then s.onlyPort t .p ∧ s.answers t .p .state []
      else
        s.answers t .p .ok [] ∧ t.head h = { s.head h with state := .heldOperator, cause := none } ∧
        (∀ g, g ≠ h → t.head g = s.head g) ∧ t.run.state = s.run.state ∧ t.change = s.change ∧ t.events = s.events ∧
        (s.run.pass = .main → t = { s.loseReply .p with portP := t.portP, heads := t.heads, ring := t.ring })) ∧
    ∃ t, exec (.headOn h) s = .next t ∧
      if h = 0 ∨ 24 < h then s.onlyPort t .p ∧ s.answers t .p .range []
      else if s.run.state = .running ∨ s.run.state = .stopping ∨ s.run.state = .changing then
        s.onlyPort t .p ∧ s.answers t .p .state []
      else match (s.head h).state with
        | .absent => s.onlyPort t .p ∧ s.answers t .p .absent []
        | .active => s.onlyPort t .p ∧ s.answers t .p .ok []
        | .resting => s.onlyPort t .p ∧ s.answers t .p .state []
        | .waiting => s.onlyPort t .p ∧ s.answers t .p .state []
        | .lost => s.answers t .p .ok [] ∧ t = { s.loseReply .p with portP := t.portP, ring := t.ring } ∧
            ((s.ring.state = .full ∨ s.ring.state = .split) → ⟨.poll, h, 0⟩ ∈ t.ring.requests)
        | _ => if s.barred h = true then s.onlyPort t .p ∧ s.answers t .p .inhibited []
            else s.answers t .p .ok [] ∧ (∀ g, g ≠ h → t.head g = s.head g ∨ s.run.pass = .repair) ∧
              (s.run.pass = .main →
                (t.head h).state = .active ∧ (t.head h).cause = none ∧ (t.head h).noMotion = 0 ∧
                (t.head h).tension = 0 ∧ (t.head h).lastMotion = s.run.cursor ∧
                ((s.head h).state = .heldFault → ∀ e ∈ t.repairs, e.head = h → e.isFault = false) ∧
                ((s.head h).state ≠ .heldFault → t.repairs = s.repairs))) ∧
  ∀ (s : State) (f : Transaction) (e : RingEnd) (w : RingWord), s.power ≠ .held → s.ring.flight = some f →
    f.request.head ≠ 31 → goodAnswer f e w = true → f.discarded = false → f.headLost = false →
    f.request.function ≠ .assign → (f.request.function = .poll → f.roundRobin = true) → s.change = none →
    s.run.pass = .main → answerBoardFault w = false → answerTensionHigh w = false → answerHeadSwitch w = true →
    let h := f.request.head
    (s.head h).state ≠ .lost →
    ∃ t, exec (.ringAnswer e w) s = .next t ∧ t.run = s.run ∧ t.repairs = s.repairs ∧ (∀ g, g ≠ h → t.head g = s.head g) ∧
      match (s.head h).state with
      | .active => (t.head h).state = .heldOperator ∧ (t.head h).cause = none ∧ t.posted [(.headSwitch, h, 0)]
      | .heldOperator =>
        if s.run.state = .running ∨ s.run.state = .stopping ∨ s.barred h = true then
          (t.head h).state = .heldOperator ∧ t.posted [(.headSwitch, h, 2)]
        else (t.head h).state = .active ∧ (t.head h).noMotion = 0 ∧ (t.head h).tension = 0 ∧
          (t.head h).lastMotion = s.run.cursor ∧ t.posted [(.headSwitch, h, 1)]
      | st => (t.head h).state = st ∧ (t.head h).cause = (s.head h).cause ∧ t.posted [(.headSwitch, h, 2)]

/-! ### Events, class table, time tag, constants (chapters 11 and 12) -/

/-- An event whose kind has LOG clear leaves no entry; else its entry stands at the tail with its gap flag clear, and a queue
of 64 entries loses its oldest and marks the entry that becomes oldest. READ_EVENTS, permitted on port P alone, outside 1..4 is refused with RANGE, and
else removes the oldest entries and carries them with the number left. -/
def Obligations.EventsAppendedAndRead : Prop :=
  (∀ (s : State) (kind : EventKind) (head : Nat) (param : BitVec 32) (target : Option Point),
    let t := s.postTarget kind head param target
    let e : EventEntry := ⟨kind, head, param, s.run.cursor, s.timeTag.value, false, target⟩
    t = { s with events := t.events } ∧
    ((s.classOf kind.code).log = false → t.events = s.events) ∧
    ((s.classOf kind.code).log = true → s.events.length < 64 → t.events = s.events ++ [e]) ∧
    (∀ first second rest, (s.classOf kind.code).log = true → s.events = first :: second :: rest → 64 ≤ s.events.length →
      t.events = { second with gap := true } :: rest ++ [e])) ∧
  (permitted .p 0x40 = true ∧ permitted .m 0x40 = false) ∧
  ∀ (s : State) (n : Nat), s.takesFrame .p = true → ∃ t, exec (.readEvents n) s = .next t ∧
    if n < 1 ∨ 4 < n then s.onlyPort t .p ∧ s.answers t .p .range []
    else
      t = { s.loseReply .p with portP := t.portP, events := s.events.drop n } ∧
      s.answers t .p .ok (BitVec.ofNat 8 (Nat.min n s.events.length) :: BitVec.ofNat 8 (s.events.length - n) ::
        (s.events.take n).flatMap eventBytes)

/-- SET_CLASS writes both flags of one of the 24 kinds, SET_TIME the value and a unit of 1, 2, 4, 8 or 16, and each refuses
any other with RANGE; the end of a unit raises the time tag by 1, or wraps it from 65,535 to 0 with TIME_TAG_WRAP. The
attention lines follow the entries, the class table and the run. After reset LOG is set for every kind, and ATTEND for all
but BOBBIN_LOW, HEAD_SWITCH, RING_PATH, RING_DONE, CHANGE_DONE, QUEUE_STARVED, MEMORY_CORRECTED and TIME_TAG_WRAP. That the
SET_CLASS reply is two bytes, LOG then ATTEND, 01h or 00h each, is the model's reading (log 12). -/
def Obligations.ClassTableTimeTagAndAttention : Prop :=
  (∀ k : EventKind, (State.reset.classOf k.code).log = true ∧
    ((State.reset.classOf k.code).attend = false ↔ k = .bobbinLow ∨ k = .headSwitch ∨ k = .ringPath ∨ k = .ringDone ∨
      k = .changeDone ∨ k = .queueStarved ∨ k = .memoryCorrected ∨ k = .timeTagWrap)) ∧
  (∀ (s : State) (kind : Nat) (log attend : Bool), s.takesFrame .p = true → ∃ t, exec (.setClass kind log attend) s = .next t ∧
    if kind < 1 ∨ 24 < kind then s.onlyPort t .p ∧ s.answers t .p .range []
    else
      s.answers t .p .ok [if log then 1 else 0, if attend then 1 else 0] ∧
      t = { s.loseReply .p with portP := t.portP, classes := t.classes } ∧
      t.classOf kind = { log := log, attend := attend } ∧ ∀ j, j ≠ kind → t.classOf j = s.classOf j) ∧
  (∀ (s : State) (value unit : Nat), s.takesFrame .p = true → ∃ t, exec (.setTime value unit) s = .next t ∧
    if unit = 1 ∨ unit = 2 ∨ unit = 4 ∨ unit = 8 ∨ unit = 16 then
      s.answers t .p .ok [] ∧
      t = { s.loseReply .p with portP := t.portP, timeTag := { value := value, unit := unit } }
    else s.onlyPort t .p ∧ s.answers t .p .range []) ∧
  (∀ s : State, s.power ≠ .held → ∃ t, exec .timeTagTick s = .next t ∧
    t = { s with timeTag := t.timeTag, events := t.events } ∧ t.timeTag.unit = s.timeTag.unit ∧
    (s.timeTag.value < 65535 → t.timeTag.value = s.timeTag.value + 1 ∧ t.events = s.events) ∧
    (s.timeTag.value = 65535 → t.timeTag.value = 0 ∧
      ((s.classOf 24).log = true → ∃ e, t.events.getLast? = some e ∧ e.kind = .timeTagWrap ∧ e.time = 0 ∧ e.head = 0 ∧
        e.param = BitVec.ofNat 32 (s.timeTag.unit % 32)))) ∧
  ∀ s : State,
    (s.attentionP = true ↔ (∃ e ∈ s.events, (s.classOf e.kind.code).attend = true) ∨ 32 ≤ s.events.length) ∧
    (s.attentionM = true ↔ s.run.state = .stopping ∨ s.run.state = .running ∧ s.queue.prepared.length < 16)

/-- SET_CONSTANTS is refused with STATE outside IDLE, with BUSY while ENUMERATING and with INVALID where a constant lies
outside its range or the thresholds do not rise; taken, it writes the whole record with the band speeds clamped and floored,
zeroes the counts of every head and answers with the record as held. -/
def Obligations.SetConstantsWritesWholeRecord : Prop :=
  ∀ (s : State) (c : ConstantsFrame), s.takesFrame .p = true → ∃ t, exec (.setConstants c) s = .next t ∧
    let valid := 1 ≤ c.nHeads ∧ c.nHeads ≤ 24 ∧ 1 ≤ c.needles ∧ c.needles ≤ 15 ∧ c.xmin < c.xmax ∧ c.xmax ≤ 60000 ∧
      c.ymin < c.ymax ∧ c.ymax ≤ 60000 ∧ 40 ≤ c.maxStep ∧ c.maxStep ≤ 800 ∧ c.bands.length = 8 ∧
      c.bands.Pairwise (fun a b => a.1 < b.1) ∧ 100 ≤ c.startSpeed ∧ c.startSpeed ≤ 1200 ∧ c.ramp ≤ 15 ∧
      1 ≤ c.motionLimit ∧ c.motionLimit ≤ 15 ∧ 1 ≤ c.tensionLimit ∧ c.tensionLimit ≤ 15 ∧ c.backstep ≤ 255 ∧
      c.faultPolicy ≤ 1 ∧ c.trimAtChange ≤ 1 ∧ 100 ≤ c.changeTime ∧ c.changeTime ≤ 2000
    if s.run.state ≠ .idle then s.onlyPort t .p ∧ s.answers t .p .state []
    else if s.ring.state = .enumerating then s.onlyPort t .p ∧ s.answers t .p .busy []
    else
      (¬ valid → s.onlyPort t .p ∧ s.answers t .p .invalid []) ∧
      (valid →
        s.answers t .p .ok (constantsBytes t.constants) ∧
        t = { s.loseReply .p with portP := t.portP, constants := t.constants, heads := t.heads } ∧
        t.constants = {
          nHeads := c.nHeads, needles := c.needles, xmin := c.xmin, xmax := c.xmax, ymin := c.ymin, ymax := c.ymax,
          maxStep := c.maxStep, startSpeed := c.startSpeed, ramp := c.ramp, motionLimit := c.motionLimit,
          tensionLimit := c.tensionLimit, backstep := c.backstep, changeTime := c.changeTime,
          faultPolicy := if c.faultPolicy = 1 then .stopAll else .continueRun, trimAtChange := decide (c.trimAtChange = 1),
          bands := c.bands.map fun b =>
            (b.1, if b.2 < 100 then 100 else if 1200 < b.2 then 1200 else b.2 / 10 * 10) } ∧
        (∀ h ∈ headNumbers, t.head h = { s.head h with noMotion := 0, tension := 0 }) ∧
        ∀ h, h ∉ headNumbers → t.head h = s.head h)

/-! ### Laws that every step keeps -/

/-- Every step keeps the queues within their places: at most 64 events, at most 64 tokens of which at most 32 issued, and the
Repair List in its order with at most 24 SKIP entries. It keeps at most one FAULT entry a head, with what that rests on,
where a change, a walk and an arm trace are present exactly in their states; so the list fits its 48 places. -/
def Obligations.QueuesKeepTheirBounds : Prop :=
  (∀ s t : State, step s = .next t →
    (s.eventsFit → t.eventsFit) ∧ (s.queueFits → t.queueFits) ∧ (s.repairsOrdered → t.repairsOrdered) ∧
      (s.operationsMatch → s.faultsSingle → t.faultsSingle)) ∧
  ∀ s : State, s.repairsOrdered → s.faultsSingle → s.repairs.length ≤ 48

/-- Every step keeps the Design Store in canonical form, and every store block in the pool or in the block map of exactly one
slot. -/
def Obligations.StoreAndPoolStayAccounted : Prop :=
  ∀ s t : State, step s = .next t →
    (s.storeCanonical → t.storeCanonical) ∧ (s.blocksAccounted → t.blocksAccounted)

/-- Every step keeps the law that no head whose machine needle is inhibited is ACTIVE, and the machine constants in range
with no count of a head above its limit. -/
def Obligations.HeadLawsStand : Prop :=
  ∀ s t : State, step s = .next t →
    (s.noBarredActive → t.noBarredActive) ∧ (s.countsBounded → t.countsBounded)

/-- Every step keeps the armed slot the one slot armed and READY or DAMAGED, and a change, a walk and an arm trace present
exactly in CHANGING, WALKING and ARMING. -/
def Obligations.ArmedSlotAndOperationsMatch : Prop :=
  ∀ s t : State, step s = .next t →
    (s.armedOnce → t.armedOnce) ∧ (s.operationsMatch → t.operationsMatch)

/-- Every step keeps every token of the Move Queue within ±M under a ceiling of 100 to 1200 in tens, TRIM and HALT without
either, while the constants are in range and the operations match the run state. -/
def Obligations.TokensStayLawful : Prop :=
  ∀ s t : State, s.operationsMatch → s.constants.inRange → step s = .next t → s.tokensLawful → t.tokensLawful

/-- The laws that every step keeps hold of the part after reset. -/
def Obligations.LawsHoldAtReset : Prop :=
  State.reset.eventsFit ∧ State.reset.queueFits ∧ State.reset.repairsOrdered ∧ State.reset.storeCanonical ∧
    State.reset.blocksAccounted ∧ State.reset.noBarredActive ∧ State.reset.countsBounded ∧ State.reset.armedOnce ∧
    State.reset.operationsMatch ∧ State.reset.tokensLawful ∧ State.reset.faultsSingle
end

