-- ==== Sys2Proof/Laws/State.lean ====
section
/-! SUPPORT. One lemma per field per update of `State`, true by rfl: no later proof unfolds a record update. -/

namespace Sys2Proof.Machine

variable (s : State)

/-! ### power -/

@[simp] theorem State.withPower_power (v : Power) : (s.withPower v).power = v := rfl
@[simp] theorem State.withPower_portP (v : Power) : (s.withPower v).portP = s.portP := rfl
@[simp] theorem State.withPower_portM (v : Power) : (s.withPower v).portM = s.portM := rfl
@[simp] theorem State.withPower_constants (v : Power) : (s.withPower v).constants = s.constants := rfl
@[simp] theorem State.withPower_store (v : Power) : (s.withPower v).store = s.store := rfl
@[simp] theorem State.withPower_pool (v : Power) : (s.withPower v).pool = s.pool := rfl
@[simp] theorem State.withPower_slots (v : Power) : (s.withPower v).slots = s.slots := rfl
@[simp] theorem State.withPower_faultRecord (v : Power) : (s.withPower v).faultRecord = s.faultRecord := rfl
@[simp] theorem State.withPower_arbiter (v : Power) : (s.withPower v).arbiter = s.arbiter := rfl
@[simp] theorem State.withPower_scan (v : Power) : (s.withPower v).scan = s.scan := rfl
@[simp] theorem State.withPower_trace (v : Power) : (s.withPower v).trace = s.trace := rfl
@[simp] theorem State.withPower_walk (v : Power) : (s.withPower v).walk = s.walk := rfl
@[simp] theorem State.withPower_run (v : Power) : (s.withPower v).run = s.run := rfl
@[simp] theorem State.withPower_seq (v : Power) : (s.withPower v).seq = s.seq := rfl
@[simp] theorem State.withPower_queue (v : Power) : (s.withPower v).queue = s.queue := rfl
@[simp] theorem State.withPower_change (v : Power) : (s.withPower v).change = s.change := rfl
@[simp] theorem State.withPower_ring (v : Power) : (s.withPower v).ring = s.ring := rfl
@[simp] theorem State.withPower_heads (v : Power) : (s.withPower v).heads = s.heads := rfl
@[simp] theorem State.withPower_inhibit (v : Power) : (s.withPower v).inhibit = s.inhibit := rfl
@[simp] theorem State.withPower_repairs (v : Power) : (s.withPower v).repairs = s.repairs := rfl
@[simp] theorem State.withPower_events (v : Power) : (s.withPower v).events = s.events := rfl
@[simp] theorem State.withPower_classes (v : Power) : (s.withPower v).classes = s.classes := rfl
@[simp] theorem State.withPower_timeTag (v : Power) : (s.withPower v).timeTag = s.timeTag := rfl
@[simp] theorem State.withPower_pending (v : Power) : (s.withPower v).pending = s.pending := rfl

/-! ### portP -/

@[simp] theorem State.withPortP_power (v : PortState) : (s.withPortP v).power = s.power := rfl
@[simp] theorem State.withPortP_portP (v : PortState) : (s.withPortP v).portP = v := rfl
@[simp] theorem State.withPortP_portM (v : PortState) : (s.withPortP v).portM = s.portM := rfl
@[simp] theorem State.withPortP_constants (v : PortState) : (s.withPortP v).constants = s.constants := rfl
@[simp] theorem State.withPortP_store (v : PortState) : (s.withPortP v).store = s.store := rfl
@[simp] theorem State.withPortP_pool (v : PortState) : (s.withPortP v).pool = s.pool := rfl
@[simp] theorem State.withPortP_slots (v : PortState) : (s.withPortP v).slots = s.slots := rfl
@[simp] theorem State.withPortP_faultRecord (v : PortState) : (s.withPortP v).faultRecord = s.faultRecord := rfl
@[simp] theorem State.withPortP_arbiter (v : PortState) : (s.withPortP v).arbiter = s.arbiter := rfl
@[simp] theorem State.withPortP_scan (v : PortState) : (s.withPortP v).scan = s.scan := rfl
@[simp] theorem State.withPortP_trace (v : PortState) : (s.withPortP v).trace = s.trace := rfl
@[simp] theorem State.withPortP_walk (v : PortState) : (s.withPortP v).walk = s.walk := rfl
@[simp] theorem State.withPortP_run (v : PortState) : (s.withPortP v).run = s.run := rfl
@[simp] theorem State.withPortP_seq (v : PortState) : (s.withPortP v).seq = s.seq := rfl
@[simp] theorem State.withPortP_queue (v : PortState) : (s.withPortP v).queue = s.queue := rfl
@[simp] theorem State.withPortP_change (v : PortState) : (s.withPortP v).change = s.change := rfl
@[simp] theorem State.withPortP_ring (v : PortState) : (s.withPortP v).ring = s.ring := rfl
@[simp] theorem State.withPortP_heads (v : PortState) : (s.withPortP v).heads = s.heads := rfl
@[simp] theorem State.withPortP_inhibit (v : PortState) : (s.withPortP v).inhibit = s.inhibit := rfl
@[simp] theorem State.withPortP_repairs (v : PortState) : (s.withPortP v).repairs = s.repairs := rfl
@[simp] theorem State.withPortP_events (v : PortState) : (s.withPortP v).events = s.events := rfl
@[simp] theorem State.withPortP_classes (v : PortState) : (s.withPortP v).classes = s.classes := rfl
@[simp] theorem State.withPortP_timeTag (v : PortState) : (s.withPortP v).timeTag = s.timeTag := rfl
@[simp] theorem State.withPortP_pending (v : PortState) : (s.withPortP v).pending = s.pending := rfl

/-! ### portM -/

@[simp] theorem State.withPortM_power (v : PortState) : (s.withPortM v).power = s.power := rfl
@[simp] theorem State.withPortM_portP (v : PortState) : (s.withPortM v).portP = s.portP := rfl
@[simp] theorem State.withPortM_portM (v : PortState) : (s.withPortM v).portM = v := rfl
@[simp] theorem State.withPortM_constants (v : PortState) : (s.withPortM v).constants = s.constants := rfl
@[simp] theorem State.withPortM_store (v : PortState) : (s.withPortM v).store = s.store := rfl
@[simp] theorem State.withPortM_pool (v : PortState) : (s.withPortM v).pool = s.pool := rfl
@[simp] theorem State.withPortM_slots (v : PortState) : (s.withPortM v).slots = s.slots := rfl
@[simp] theorem State.withPortM_faultRecord (v : PortState) : (s.withPortM v).faultRecord = s.faultRecord := rfl
@[simp] theorem State.withPortM_arbiter (v : PortState) : (s.withPortM v).arbiter = s.arbiter := rfl
@[simp] theorem State.withPortM_scan (v : PortState) : (s.withPortM v).scan = s.scan := rfl
@[simp] theorem State.withPortM_trace (v : PortState) : (s.withPortM v).trace = s.trace := rfl
@[simp] theorem State.withPortM_walk (v : PortState) : (s.withPortM v).walk = s.walk := rfl
@[simp] theorem State.withPortM_run (v : PortState) : (s.withPortM v).run = s.run := rfl
@[simp] theorem State.withPortM_seq (v : PortState) : (s.withPortM v).seq = s.seq := rfl
@[simp] theorem State.withPortM_queue (v : PortState) : (s.withPortM v).queue = s.queue := rfl
@[simp] theorem State.withPortM_change (v : PortState) : (s.withPortM v).change = s.change := rfl
@[simp] theorem State.withPortM_ring (v : PortState) : (s.withPortM v).ring = s.ring := rfl
@[simp] theorem State.withPortM_heads (v : PortState) : (s.withPortM v).heads = s.heads := rfl
@[simp] theorem State.withPortM_inhibit (v : PortState) : (s.withPortM v).inhibit = s.inhibit := rfl
@[simp] theorem State.withPortM_repairs (v : PortState) : (s.withPortM v).repairs = s.repairs := rfl
@[simp] theorem State.withPortM_events (v : PortState) : (s.withPortM v).events = s.events := rfl
@[simp] theorem State.withPortM_classes (v : PortState) : (s.withPortM v).classes = s.classes := rfl
@[simp] theorem State.withPortM_timeTag (v : PortState) : (s.withPortM v).timeTag = s.timeTag := rfl
@[simp] theorem State.withPortM_pending (v : PortState) : (s.withPortM v).pending = s.pending := rfl

/-! ### constants -/

@[simp] theorem State.withConstants_power (v : Constants) : (s.withConstants v).power = s.power := rfl
@[simp] theorem State.withConstants_portP (v : Constants) : (s.withConstants v).portP = s.portP := rfl
@[simp] theorem State.withConstants_portM (v : Constants) : (s.withConstants v).portM = s.portM := rfl
@[simp] theorem State.withConstants_constants (v : Constants) : (s.withConstants v).constants = v := rfl
@[simp] theorem State.withConstants_store (v : Constants) : (s.withConstants v).store = s.store := rfl
@[simp] theorem State.withConstants_pool (v : Constants) : (s.withConstants v).pool = s.pool := rfl
@[simp] theorem State.withConstants_slots (v : Constants) : (s.withConstants v).slots = s.slots := rfl
@[simp] theorem State.withConstants_faultRecord (v : Constants) : (s.withConstants v).faultRecord = s.faultRecord := rfl
@[simp] theorem State.withConstants_arbiter (v : Constants) : (s.withConstants v).arbiter = s.arbiter := rfl
@[simp] theorem State.withConstants_scan (v : Constants) : (s.withConstants v).scan = s.scan := rfl
@[simp] theorem State.withConstants_trace (v : Constants) : (s.withConstants v).trace = s.trace := rfl
@[simp] theorem State.withConstants_walk (v : Constants) : (s.withConstants v).walk = s.walk := rfl
@[simp] theorem State.withConstants_run (v : Constants) : (s.withConstants v).run = s.run := rfl
@[simp] theorem State.withConstants_seq (v : Constants) : (s.withConstants v).seq = s.seq := rfl
@[simp] theorem State.withConstants_queue (v : Constants) : (s.withConstants v).queue = s.queue := rfl
@[simp] theorem State.withConstants_change (v : Constants) : (s.withConstants v).change = s.change := rfl
@[simp] theorem State.withConstants_ring (v : Constants) : (s.withConstants v).ring = s.ring := rfl
@[simp] theorem State.withConstants_heads (v : Constants) : (s.withConstants v).heads = s.heads := rfl
@[simp] theorem State.withConstants_inhibit (v : Constants) : (s.withConstants v).inhibit = s.inhibit := rfl
@[simp] theorem State.withConstants_repairs (v : Constants) : (s.withConstants v).repairs = s.repairs := rfl
@[simp] theorem State.withConstants_events (v : Constants) : (s.withConstants v).events = s.events := rfl
@[simp] theorem State.withConstants_classes (v : Constants) : (s.withConstants v).classes = s.classes := rfl
@[simp] theorem State.withConstants_timeTag (v : Constants) : (s.withConstants v).timeTag = s.timeTag := rfl
@[simp] theorem State.withConstants_pending (v : Constants) : (s.withConstants v).pending = s.pending := rfl

/-! ### store -/

@[simp] theorem State.withStore_power (v : Table Chunk) : (s.withStore v).power = s.power := rfl
@[simp] theorem State.withStore_portP (v : Table Chunk) : (s.withStore v).portP = s.portP := rfl
@[simp] theorem State.withStore_portM (v : Table Chunk) : (s.withStore v).portM = s.portM := rfl
@[simp] theorem State.withStore_constants (v : Table Chunk) : (s.withStore v).constants = s.constants := rfl
@[simp] theorem State.withStore_store (v : Table Chunk) : (s.withStore v).store = v := rfl
@[simp] theorem State.withStore_pool (v : Table Chunk) : (s.withStore v).pool = s.pool := rfl
@[simp] theorem State.withStore_slots (v : Table Chunk) : (s.withStore v).slots = s.slots := rfl
@[simp] theorem State.withStore_faultRecord (v : Table Chunk) : (s.withStore v).faultRecord = s.faultRecord := rfl
@[simp] theorem State.withStore_arbiter (v : Table Chunk) : (s.withStore v).arbiter = s.arbiter := rfl
@[simp] theorem State.withStore_scan (v : Table Chunk) : (s.withStore v).scan = s.scan := rfl
@[simp] theorem State.withStore_trace (v : Table Chunk) : (s.withStore v).trace = s.trace := rfl
@[simp] theorem State.withStore_walk (v : Table Chunk) : (s.withStore v).walk = s.walk := rfl
@[simp] theorem State.withStore_run (v : Table Chunk) : (s.withStore v).run = s.run := rfl
@[simp] theorem State.withStore_seq (v : Table Chunk) : (s.withStore v).seq = s.seq := rfl
@[simp] theorem State.withStore_queue (v : Table Chunk) : (s.withStore v).queue = s.queue := rfl
@[simp] theorem State.withStore_change (v : Table Chunk) : (s.withStore v).change = s.change := rfl
@[simp] theorem State.withStore_ring (v : Table Chunk) : (s.withStore v).ring = s.ring := rfl
@[simp] theorem State.withStore_heads (v : Table Chunk) : (s.withStore v).heads = s.heads := rfl
@[simp] theorem State.withStore_inhibit (v : Table Chunk) : (s.withStore v).inhibit = s.inhibit := rfl
@[simp] theorem State.withStore_repairs (v : Table Chunk) : (s.withStore v).repairs = s.repairs := rfl
@[simp] theorem State.withStore_events (v : Table Chunk) : (s.withStore v).events = s.events := rfl
@[simp] theorem State.withStore_classes (v : Table Chunk) : (s.withStore v).classes = s.classes := rfl
@[simp] theorem State.withStore_timeTag (v : Table Chunk) : (s.withStore v).timeTag = s.timeTag := rfl
@[simp] theorem State.withStore_pending (v : Table Chunk) : (s.withStore v).pending = s.pending := rfl

/-! ### pool -/

@[simp] theorem State.withPool_power (v : List Nat) : (s.withPool v).power = s.power := rfl
@[simp] theorem State.withPool_portP (v : List Nat) : (s.withPool v).portP = s.portP := rfl
@[simp] theorem State.withPool_portM (v : List Nat) : (s.withPool v).portM = s.portM := rfl
@[simp] theorem State.withPool_constants (v : List Nat) : (s.withPool v).constants = s.constants := rfl
@[simp] theorem State.withPool_store (v : List Nat) : (s.withPool v).store = s.store := rfl
@[simp] theorem State.withPool_pool (v : List Nat) : (s.withPool v).pool = v := rfl
@[simp] theorem State.withPool_slots (v : List Nat) : (s.withPool v).slots = s.slots := rfl
@[simp] theorem State.withPool_faultRecord (v : List Nat) : (s.withPool v).faultRecord = s.faultRecord := rfl
@[simp] theorem State.withPool_arbiter (v : List Nat) : (s.withPool v).arbiter = s.arbiter := rfl
@[simp] theorem State.withPool_scan (v : List Nat) : (s.withPool v).scan = s.scan := rfl
@[simp] theorem State.withPool_trace (v : List Nat) : (s.withPool v).trace = s.trace := rfl
@[simp] theorem State.withPool_walk (v : List Nat) : (s.withPool v).walk = s.walk := rfl
@[simp] theorem State.withPool_run (v : List Nat) : (s.withPool v).run = s.run := rfl
@[simp] theorem State.withPool_seq (v : List Nat) : (s.withPool v).seq = s.seq := rfl
@[simp] theorem State.withPool_queue (v : List Nat) : (s.withPool v).queue = s.queue := rfl
@[simp] theorem State.withPool_change (v : List Nat) : (s.withPool v).change = s.change := rfl
@[simp] theorem State.withPool_ring (v : List Nat) : (s.withPool v).ring = s.ring := rfl
@[simp] theorem State.withPool_heads (v : List Nat) : (s.withPool v).heads = s.heads := rfl
@[simp] theorem State.withPool_inhibit (v : List Nat) : (s.withPool v).inhibit = s.inhibit := rfl
@[simp] theorem State.withPool_repairs (v : List Nat) : (s.withPool v).repairs = s.repairs := rfl
@[simp] theorem State.withPool_events (v : List Nat) : (s.withPool v).events = s.events := rfl
@[simp] theorem State.withPool_classes (v : List Nat) : (s.withPool v).classes = s.classes := rfl
@[simp] theorem State.withPool_timeTag (v : List Nat) : (s.withPool v).timeTag = s.timeTag := rfl
@[simp] theorem State.withPool_pending (v : List Nat) : (s.withPool v).pending = s.pending := rfl

/-! ### slots -/

@[simp] theorem State.withSlots_power (v : Table SlotRecord) : (s.withSlots v).power = s.power := rfl
@[simp] theorem State.withSlots_portP (v : Table SlotRecord) : (s.withSlots v).portP = s.portP := rfl
@[simp] theorem State.withSlots_portM (v : Table SlotRecord) : (s.withSlots v).portM = s.portM := rfl
@[simp] theorem State.withSlots_constants (v : Table SlotRecord) : (s.withSlots v).constants = s.constants := rfl
@[simp] theorem State.withSlots_store (v : Table SlotRecord) : (s.withSlots v).store = s.store := rfl
@[simp] theorem State.withSlots_pool (v : Table SlotRecord) : (s.withSlots v).pool = s.pool := rfl
@[simp] theorem State.withSlots_slots (v : Table SlotRecord) : (s.withSlots v).slots = v := rfl
@[simp] theorem State.withSlots_faultRecord (v : Table SlotRecord) : (s.withSlots v).faultRecord = s.faultRecord := rfl
@[simp] theorem State.withSlots_arbiter (v : Table SlotRecord) : (s.withSlots v).arbiter = s.arbiter := rfl
@[simp] theorem State.withSlots_scan (v : Table SlotRecord) : (s.withSlots v).scan = s.scan := rfl
@[simp] theorem State.withSlots_trace (v : Table SlotRecord) : (s.withSlots v).trace = s.trace := rfl
@[simp] theorem State.withSlots_walk (v : Table SlotRecord) : (s.withSlots v).walk = s.walk := rfl
@[simp] theorem State.withSlots_run (v : Table SlotRecord) : (s.withSlots v).run = s.run := rfl
@[simp] theorem State.withSlots_seq (v : Table SlotRecord) : (s.withSlots v).seq = s.seq := rfl
@[simp] theorem State.withSlots_queue (v : Table SlotRecord) : (s.withSlots v).queue = s.queue := rfl
@[simp] theorem State.withSlots_change (v : Table SlotRecord) : (s.withSlots v).change = s.change := rfl
@[simp] theorem State.withSlots_ring (v : Table SlotRecord) : (s.withSlots v).ring = s.ring := rfl
@[simp] theorem State.withSlots_heads (v : Table SlotRecord) : (s.withSlots v).heads = s.heads := rfl
@[simp] theorem State.withSlots_inhibit (v : Table SlotRecord) : (s.withSlots v).inhibit = s.inhibit := rfl
@[simp] theorem State.withSlots_repairs (v : Table SlotRecord) : (s.withSlots v).repairs = s.repairs := rfl
@[simp] theorem State.withSlots_events (v : Table SlotRecord) : (s.withSlots v).events = s.events := rfl
@[simp] theorem State.withSlots_classes (v : Table SlotRecord) : (s.withSlots v).classes = s.classes := rfl
@[simp] theorem State.withSlots_timeTag (v : Table SlotRecord) : (s.withSlots v).timeTag = s.timeTag := rfl
@[simp] theorem State.withSlots_pending (v : Table SlotRecord) : (s.withSlots v).pending = s.pending := rfl

/-! ### faultRecord -/

@[simp] theorem State.withFaultRecord_power (v : AccessFault) : (s.withFaultRecord v).power = s.power := rfl
@[simp] theorem State.withFaultRecord_portP (v : AccessFault) : (s.withFaultRecord v).portP = s.portP := rfl
@[simp] theorem State.withFaultRecord_portM (v : AccessFault) : (s.withFaultRecord v).portM = s.portM := rfl
@[simp] theorem State.withFaultRecord_constants (v : AccessFault) : (s.withFaultRecord v).constants = s.constants := rfl
@[simp] theorem State.withFaultRecord_store (v : AccessFault) : (s.withFaultRecord v).store = s.store := rfl
@[simp] theorem State.withFaultRecord_pool (v : AccessFault) : (s.withFaultRecord v).pool = s.pool := rfl
@[simp] theorem State.withFaultRecord_slots (v : AccessFault) : (s.withFaultRecord v).slots = s.slots := rfl
@[simp] theorem State.withFaultRecord_faultRecord (v : AccessFault) : (s.withFaultRecord v).faultRecord = v := rfl
@[simp] theorem State.withFaultRecord_arbiter (v : AccessFault) : (s.withFaultRecord v).arbiter = s.arbiter := rfl
@[simp] theorem State.withFaultRecord_scan (v : AccessFault) : (s.withFaultRecord v).scan = s.scan := rfl
@[simp] theorem State.withFaultRecord_trace (v : AccessFault) : (s.withFaultRecord v).trace = s.trace := rfl
@[simp] theorem State.withFaultRecord_walk (v : AccessFault) : (s.withFaultRecord v).walk = s.walk := rfl
@[simp] theorem State.withFaultRecord_run (v : AccessFault) : (s.withFaultRecord v).run = s.run := rfl
@[simp] theorem State.withFaultRecord_seq (v : AccessFault) : (s.withFaultRecord v).seq = s.seq := rfl
@[simp] theorem State.withFaultRecord_queue (v : AccessFault) : (s.withFaultRecord v).queue = s.queue := rfl
@[simp] theorem State.withFaultRecord_change (v : AccessFault) : (s.withFaultRecord v).change = s.change := rfl
@[simp] theorem State.withFaultRecord_ring (v : AccessFault) : (s.withFaultRecord v).ring = s.ring := rfl
@[simp] theorem State.withFaultRecord_heads (v : AccessFault) : (s.withFaultRecord v).heads = s.heads := rfl
@[simp] theorem State.withFaultRecord_inhibit (v : AccessFault) : (s.withFaultRecord v).inhibit = s.inhibit := rfl
@[simp] theorem State.withFaultRecord_repairs (v : AccessFault) : (s.withFaultRecord v).repairs = s.repairs := rfl
@[simp] theorem State.withFaultRecord_events (v : AccessFault) : (s.withFaultRecord v).events = s.events := rfl
@[simp] theorem State.withFaultRecord_classes (v : AccessFault) : (s.withFaultRecord v).classes = s.classes := rfl
@[simp] theorem State.withFaultRecord_timeTag (v : AccessFault) : (s.withFaultRecord v).timeTag = s.timeTag := rfl
@[simp] theorem State.withFaultRecord_pending (v : AccessFault) : (s.withFaultRecord v).pending = s.pending := rfl

/-! ### arbiter -/

@[simp] theorem State.withArbiter_power (v : Arbiter) : (s.withArbiter v).power = s.power := rfl
@[simp] theorem State.withArbiter_portP (v : Arbiter) : (s.withArbiter v).portP = s.portP := rfl
@[simp] theorem State.withArbiter_portM (v : Arbiter) : (s.withArbiter v).portM = s.portM := rfl
@[simp] theorem State.withArbiter_constants (v : Arbiter) : (s.withArbiter v).constants = s.constants := rfl
@[simp] theorem State.withArbiter_store (v : Arbiter) : (s.withArbiter v).store = s.store := rfl
@[simp] theorem State.withArbiter_pool (v : Arbiter) : (s.withArbiter v).pool = s.pool := rfl
@[simp] theorem State.withArbiter_slots (v : Arbiter) : (s.withArbiter v).slots = s.slots := rfl
@[simp] theorem State.withArbiter_faultRecord (v : Arbiter) : (s.withArbiter v).faultRecord = s.faultRecord := rfl
@[simp] theorem State.withArbiter_arbiter (v : Arbiter) : (s.withArbiter v).arbiter = v := rfl
@[simp] theorem State.withArbiter_scan (v : Arbiter) : (s.withArbiter v).scan = s.scan := rfl
@[simp] theorem State.withArbiter_trace (v : Arbiter) : (s.withArbiter v).trace = s.trace := rfl
@[simp] theorem State.withArbiter_walk (v : Arbiter) : (s.withArbiter v).walk = s.walk := rfl
@[simp] theorem State.withArbiter_run (v : Arbiter) : (s.withArbiter v).run = s.run := rfl
@[simp] theorem State.withArbiter_seq (v : Arbiter) : (s.withArbiter v).seq = s.seq := rfl
@[simp] theorem State.withArbiter_queue (v : Arbiter) : (s.withArbiter v).queue = s.queue := rfl
@[simp] theorem State.withArbiter_change (v : Arbiter) : (s.withArbiter v).change = s.change := rfl
@[simp] theorem State.withArbiter_ring (v : Arbiter) : (s.withArbiter v).ring = s.ring := rfl
@[simp] theorem State.withArbiter_heads (v : Arbiter) : (s.withArbiter v).heads = s.heads := rfl
@[simp] theorem State.withArbiter_inhibit (v : Arbiter) : (s.withArbiter v).inhibit = s.inhibit := rfl
@[simp] theorem State.withArbiter_repairs (v : Arbiter) : (s.withArbiter v).repairs = s.repairs := rfl
@[simp] theorem State.withArbiter_events (v : Arbiter) : (s.withArbiter v).events = s.events := rfl
@[simp] theorem State.withArbiter_classes (v : Arbiter) : (s.withArbiter v).classes = s.classes := rfl
@[simp] theorem State.withArbiter_timeTag (v : Arbiter) : (s.withArbiter v).timeTag = s.timeTag := rfl
@[simp] theorem State.withArbiter_pending (v : Arbiter) : (s.withArbiter v).pending = s.pending := rfl

/-! ### scan -/

@[simp] theorem State.withScan_power (v : Option CloseScan) : (s.withScan v).power = s.power := rfl
@[simp] theorem State.withScan_portP (v : Option CloseScan) : (s.withScan v).portP = s.portP := rfl
@[simp] theorem State.withScan_portM (v : Option CloseScan) : (s.withScan v).portM = s.portM := rfl
@[simp] theorem State.withScan_constants (v : Option CloseScan) : (s.withScan v).constants = s.constants := rfl
@[simp] theorem State.withScan_store (v : Option CloseScan) : (s.withScan v).store = s.store := rfl
@[simp] theorem State.withScan_pool (v : Option CloseScan) : (s.withScan v).pool = s.pool := rfl
@[simp] theorem State.withScan_slots (v : Option CloseScan) : (s.withScan v).slots = s.slots := rfl
@[simp] theorem State.withScan_faultRecord (v : Option CloseScan) : (s.withScan v).faultRecord = s.faultRecord := rfl
@[simp] theorem State.withScan_arbiter (v : Option CloseScan) : (s.withScan v).arbiter = s.arbiter := rfl
@[simp] theorem State.withScan_scan (v : Option CloseScan) : (s.withScan v).scan = v := rfl
@[simp] theorem State.withScan_trace (v : Option CloseScan) : (s.withScan v).trace = s.trace := rfl
@[simp] theorem State.withScan_walk (v : Option CloseScan) : (s.withScan v).walk = s.walk := rfl
@[simp] theorem State.withScan_run (v : Option CloseScan) : (s.withScan v).run = s.run := rfl
@[simp] theorem State.withScan_seq (v : Option CloseScan) : (s.withScan v).seq = s.seq := rfl
@[simp] theorem State.withScan_queue (v : Option CloseScan) : (s.withScan v).queue = s.queue := rfl
@[simp] theorem State.withScan_change (v : Option CloseScan) : (s.withScan v).change = s.change := rfl
@[simp] theorem State.withScan_ring (v : Option CloseScan) : (s.withScan v).ring = s.ring := rfl
@[simp] theorem State.withScan_heads (v : Option CloseScan) : (s.withScan v).heads = s.heads := rfl
@[simp] theorem State.withScan_inhibit (v : Option CloseScan) : (s.withScan v).inhibit = s.inhibit := rfl
@[simp] theorem State.withScan_repairs (v : Option CloseScan) : (s.withScan v).repairs = s.repairs := rfl
@[simp] theorem State.withScan_events (v : Option CloseScan) : (s.withScan v).events = s.events := rfl
@[simp] theorem State.withScan_classes (v : Option CloseScan) : (s.withScan v).classes = s.classes := rfl
@[simp] theorem State.withScan_timeTag (v : Option CloseScan) : (s.withScan v).timeTag = s.timeTag := rfl
@[simp] theorem State.withScan_pending (v : Option CloseScan) : (s.withScan v).pending = s.pending := rfl

/-! ### trace -/

@[simp] theorem State.withTrace_power (v : Option ArmTrace) : (s.withTrace v).power = s.power := rfl
@[simp] theorem State.withTrace_portP (v : Option ArmTrace) : (s.withTrace v).portP = s.portP := rfl
@[simp] theorem State.withTrace_portM (v : Option ArmTrace) : (s.withTrace v).portM = s.portM := rfl
@[simp] theorem State.withTrace_constants (v : Option ArmTrace) : (s.withTrace v).constants = s.constants := rfl
@[simp] theorem State.withTrace_store (v : Option ArmTrace) : (s.withTrace v).store = s.store := rfl
@[simp] theorem State.withTrace_pool (v : Option ArmTrace) : (s.withTrace v).pool = s.pool := rfl
@[simp] theorem State.withTrace_slots (v : Option ArmTrace) : (s.withTrace v).slots = s.slots := rfl
@[simp] theorem State.withTrace_faultRecord (v : Option ArmTrace) : (s.withTrace v).faultRecord = s.faultRecord := rfl
@[simp] theorem State.withTrace_arbiter (v : Option ArmTrace) : (s.withTrace v).arbiter = s.arbiter := rfl
@[simp] theorem State.withTrace_scan (v : Option ArmTrace) : (s.withTrace v).scan = s.scan := rfl
@[simp] theorem State.withTrace_trace (v : Option ArmTrace) : (s.withTrace v).trace = v := rfl
@[simp] theorem State.withTrace_walk (v : Option ArmTrace) : (s.withTrace v).walk = s.walk := rfl
@[simp] theorem State.withTrace_run (v : Option ArmTrace) : (s.withTrace v).run = s.run := rfl
@[simp] theorem State.withTrace_seq (v : Option ArmTrace) : (s.withTrace v).seq = s.seq := rfl
@[simp] theorem State.withTrace_queue (v : Option ArmTrace) : (s.withTrace v).queue = s.queue := rfl
@[simp] theorem State.withTrace_change (v : Option ArmTrace) : (s.withTrace v).change = s.change := rfl
@[simp] theorem State.withTrace_ring (v : Option ArmTrace) : (s.withTrace v).ring = s.ring := rfl
@[simp] theorem State.withTrace_heads (v : Option ArmTrace) : (s.withTrace v).heads = s.heads := rfl
@[simp] theorem State.withTrace_inhibit (v : Option ArmTrace) : (s.withTrace v).inhibit = s.inhibit := rfl
@[simp] theorem State.withTrace_repairs (v : Option ArmTrace) : (s.withTrace v).repairs = s.repairs := rfl
@[simp] theorem State.withTrace_events (v : Option ArmTrace) : (s.withTrace v).events = s.events := rfl
@[simp] theorem State.withTrace_classes (v : Option ArmTrace) : (s.withTrace v).classes = s.classes := rfl
@[simp] theorem State.withTrace_timeTag (v : Option ArmTrace) : (s.withTrace v).timeTag = s.timeTag := rfl
@[simp] theorem State.withTrace_pending (v : Option ArmTrace) : (s.withTrace v).pending = s.pending := rfl

/-! ### walk -/

@[simp] theorem State.withWalk_power (v : Option WalkRecord) : (s.withWalk v).power = s.power := rfl
@[simp] theorem State.withWalk_portP (v : Option WalkRecord) : (s.withWalk v).portP = s.portP := rfl
@[simp] theorem State.withWalk_portM (v : Option WalkRecord) : (s.withWalk v).portM = s.portM := rfl
@[simp] theorem State.withWalk_constants (v : Option WalkRecord) : (s.withWalk v).constants = s.constants := rfl
@[simp] theorem State.withWalk_store (v : Option WalkRecord) : (s.withWalk v).store = s.store := rfl
@[simp] theorem State.withWalk_pool (v : Option WalkRecord) : (s.withWalk v).pool = s.pool := rfl
@[simp] theorem State.withWalk_slots (v : Option WalkRecord) : (s.withWalk v).slots = s.slots := rfl
@[simp] theorem State.withWalk_faultRecord (v : Option WalkRecord) : (s.withWalk v).faultRecord = s.faultRecord := rfl
@[simp] theorem State.withWalk_arbiter (v : Option WalkRecord) : (s.withWalk v).arbiter = s.arbiter := rfl
@[simp] theorem State.withWalk_scan (v : Option WalkRecord) : (s.withWalk v).scan = s.scan := rfl
@[simp] theorem State.withWalk_trace (v : Option WalkRecord) : (s.withWalk v).trace = s.trace := rfl
@[simp] theorem State.withWalk_walk (v : Option WalkRecord) : (s.withWalk v).walk = v := rfl
@[simp] theorem State.withWalk_run (v : Option WalkRecord) : (s.withWalk v).run = s.run := rfl
@[simp] theorem State.withWalk_seq (v : Option WalkRecord) : (s.withWalk v).seq = s.seq := rfl
@[simp] theorem State.withWalk_queue (v : Option WalkRecord) : (s.withWalk v).queue = s.queue := rfl
@[simp] theorem State.withWalk_change (v : Option WalkRecord) : (s.withWalk v).change = s.change := rfl
@[simp] theorem State.withWalk_ring (v : Option WalkRecord) : (s.withWalk v).ring = s.ring := rfl
@[simp] theorem State.withWalk_heads (v : Option WalkRecord) : (s.withWalk v).heads = s.heads := rfl
@[simp] theorem State.withWalk_inhibit (v : Option WalkRecord) : (s.withWalk v).inhibit = s.inhibit := rfl
@[simp] theorem State.withWalk_repairs (v : Option WalkRecord) : (s.withWalk v).repairs = s.repairs := rfl
@[simp] theorem State.withWalk_events (v : Option WalkRecord) : (s.withWalk v).events = s.events := rfl
@[simp] theorem State.withWalk_classes (v : Option WalkRecord) : (s.withWalk v).classes = s.classes := rfl
@[simp] theorem State.withWalk_timeTag (v : Option WalkRecord) : (s.withWalk v).timeTag = s.timeTag := rfl
@[simp] theorem State.withWalk_pending (v : Option WalkRecord) : (s.withWalk v).pending = s.pending := rfl

/-! ### run -/

@[simp] theorem State.withRun_power (v : RunRecord) : (s.withRun v).power = s.power := rfl
@[simp] theorem State.withRun_portP (v : RunRecord) : (s.withRun v).portP = s.portP := rfl
@[simp] theorem State.withRun_portM (v : RunRecord) : (s.withRun v).portM = s.portM := rfl
@[simp] theorem State.withRun_constants (v : RunRecord) : (s.withRun v).constants = s.constants := rfl
@[simp] theorem State.withRun_store (v : RunRecord) : (s.withRun v).store = s.store := rfl
@[simp] theorem State.withRun_pool (v : RunRecord) : (s.withRun v).pool = s.pool := rfl
@[simp] theorem State.withRun_slots (v : RunRecord) : (s.withRun v).slots = s.slots := rfl
@[simp] theorem State.withRun_faultRecord (v : RunRecord) : (s.withRun v).faultRecord = s.faultRecord := rfl
@[simp] theorem State.withRun_arbiter (v : RunRecord) : (s.withRun v).arbiter = s.arbiter := rfl
@[simp] theorem State.withRun_scan (v : RunRecord) : (s.withRun v).scan = s.scan := rfl
@[simp] theorem State.withRun_trace (v : RunRecord) : (s.withRun v).trace = s.trace := rfl
@[simp] theorem State.withRun_walk (v : RunRecord) : (s.withRun v).walk = s.walk := rfl
@[simp] theorem State.withRun_run (v : RunRecord) : (s.withRun v).run = v := rfl
@[simp] theorem State.withRun_seq (v : RunRecord) : (s.withRun v).seq = s.seq := rfl
@[simp] theorem State.withRun_queue (v : RunRecord) : (s.withRun v).queue = s.queue := rfl
@[simp] theorem State.withRun_change (v : RunRecord) : (s.withRun v).change = s.change := rfl
@[simp] theorem State.withRun_ring (v : RunRecord) : (s.withRun v).ring = s.ring := rfl
@[simp] theorem State.withRun_heads (v : RunRecord) : (s.withRun v).heads = s.heads := rfl
@[simp] theorem State.withRun_inhibit (v : RunRecord) : (s.withRun v).inhibit = s.inhibit := rfl
@[simp] theorem State.withRun_repairs (v : RunRecord) : (s.withRun v).repairs = s.repairs := rfl
@[simp] theorem State.withRun_events (v : RunRecord) : (s.withRun v).events = s.events := rfl
@[simp] theorem State.withRun_classes (v : RunRecord) : (s.withRun v).classes = s.classes := rfl
@[simp] theorem State.withRun_timeTag (v : RunRecord) : (s.withRun v).timeTag = s.timeTag := rfl
@[simp] theorem State.withRun_pending (v : RunRecord) : (s.withRun v).pending = s.pending := rfl

/-! ### seq -/

@[simp] theorem State.withSeq_power (v : Sequencer) : (s.withSeq v).power = s.power := rfl
@[simp] theorem State.withSeq_portP (v : Sequencer) : (s.withSeq v).portP = s.portP := rfl
@[simp] theorem State.withSeq_portM (v : Sequencer) : (s.withSeq v).portM = s.portM := rfl
@[simp] theorem State.withSeq_constants (v : Sequencer) : (s.withSeq v).constants = s.constants := rfl
@[simp] theorem State.withSeq_store (v : Sequencer) : (s.withSeq v).store = s.store := rfl
@[simp] theorem State.withSeq_pool (v : Sequencer) : (s.withSeq v).pool = s.pool := rfl
@[simp] theorem State.withSeq_slots (v : Sequencer) : (s.withSeq v).slots = s.slots := rfl
@[simp] theorem State.withSeq_faultRecord (v : Sequencer) : (s.withSeq v).faultRecord = s.faultRecord := rfl
@[simp] theorem State.withSeq_arbiter (v : Sequencer) : (s.withSeq v).arbiter = s.arbiter := rfl
@[simp] theorem State.withSeq_scan (v : Sequencer) : (s.withSeq v).scan = s.scan := rfl
@[simp] theorem State.withSeq_trace (v : Sequencer) : (s.withSeq v).trace = s.trace := rfl
@[simp] theorem State.withSeq_walk (v : Sequencer) : (s.withSeq v).walk = s.walk := rfl
@[simp] theorem State.withSeq_run (v : Sequencer) : (s.withSeq v).run = s.run := rfl
@[simp] theorem State.withSeq_seq (v : Sequencer) : (s.withSeq v).seq = v := rfl
@[simp] theorem State.withSeq_queue (v : Sequencer) : (s.withSeq v).queue = s.queue := rfl
@[simp] theorem State.withSeq_change (v : Sequencer) : (s.withSeq v).change = s.change := rfl
@[simp] theorem State.withSeq_ring (v : Sequencer) : (s.withSeq v).ring = s.ring := rfl
@[simp] theorem State.withSeq_heads (v : Sequencer) : (s.withSeq v).heads = s.heads := rfl
@[simp] theorem State.withSeq_inhibit (v : Sequencer) : (s.withSeq v).inhibit = s.inhibit := rfl
@[simp] theorem State.withSeq_repairs (v : Sequencer) : (s.withSeq v).repairs = s.repairs := rfl
@[simp] theorem State.withSeq_events (v : Sequencer) : (s.withSeq v).events = s.events := rfl
@[simp] theorem State.withSeq_classes (v : Sequencer) : (s.withSeq v).classes = s.classes := rfl
@[simp] theorem State.withSeq_timeTag (v : Sequencer) : (s.withSeq v).timeTag = s.timeTag := rfl
@[simp] theorem State.withSeq_pending (v : Sequencer) : (s.withSeq v).pending = s.pending := rfl

/-! ### queue -/

@[simp] theorem State.withQueue_power (v : MoveQueue) : (s.withQueue v).power = s.power := rfl
@[simp] theorem State.withQueue_portP (v : MoveQueue) : (s.withQueue v).portP = s.portP := rfl
@[simp] theorem State.withQueue_portM (v : MoveQueue) : (s.withQueue v).portM = s.portM := rfl
@[simp] theorem State.withQueue_constants (v : MoveQueue) : (s.withQueue v).constants = s.constants := rfl
@[simp] theorem State.withQueue_store (v : MoveQueue) : (s.withQueue v).store = s.store := rfl
@[simp] theorem State.withQueue_pool (v : MoveQueue) : (s.withQueue v).pool = s.pool := rfl
@[simp] theorem State.withQueue_slots (v : MoveQueue) : (s.withQueue v).slots = s.slots := rfl
@[simp] theorem State.withQueue_faultRecord (v : MoveQueue) : (s.withQueue v).faultRecord = s.faultRecord := rfl
@[simp] theorem State.withQueue_arbiter (v : MoveQueue) : (s.withQueue v).arbiter = s.arbiter := rfl
@[simp] theorem State.withQueue_scan (v : MoveQueue) : (s.withQueue v).scan = s.scan := rfl
@[simp] theorem State.withQueue_trace (v : MoveQueue) : (s.withQueue v).trace = s.trace := rfl
@[simp] theorem State.withQueue_walk (v : MoveQueue) : (s.withQueue v).walk = s.walk := rfl
@[simp] theorem State.withQueue_run (v : MoveQueue) : (s.withQueue v).run = s.run := rfl
@[simp] theorem State.withQueue_seq (v : MoveQueue) : (s.withQueue v).seq = s.seq := rfl
@[simp] theorem State.withQueue_queue (v : MoveQueue) : (s.withQueue v).queue = v := rfl
@[simp] theorem State.withQueue_change (v : MoveQueue) : (s.withQueue v).change = s.change := rfl
@[simp] theorem State.withQueue_ring (v : MoveQueue) : (s.withQueue v).ring = s.ring := rfl
@[simp] theorem State.withQueue_heads (v : MoveQueue) : (s.withQueue v).heads = s.heads := rfl
@[simp] theorem State.withQueue_inhibit (v : MoveQueue) : (s.withQueue v).inhibit = s.inhibit := rfl
@[simp] theorem State.withQueue_repairs (v : MoveQueue) : (s.withQueue v).repairs = s.repairs := rfl
@[simp] theorem State.withQueue_events (v : MoveQueue) : (s.withQueue v).events = s.events := rfl
@[simp] theorem State.withQueue_classes (v : MoveQueue) : (s.withQueue v).classes = s.classes := rfl
@[simp] theorem State.withQueue_timeTag (v : MoveQueue) : (s.withQueue v).timeTag = s.timeTag := rfl
@[simp] theorem State.withQueue_pending (v : MoveQueue) : (s.withQueue v).pending = s.pending := rfl

/-! ### change -/

@[simp] theorem State.withChange_power (v : Option ChangeRecord) : (s.withChange v).power = s.power := rfl
@[simp] theorem State.withChange_portP (v : Option ChangeRecord) : (s.withChange v).portP = s.portP := rfl
@[simp] theorem State.withChange_portM (v : Option ChangeRecord) : (s.withChange v).portM = s.portM := rfl
@[simp] theorem State.withChange_constants (v : Option ChangeRecord) : (s.withChange v).constants = s.constants := rfl
@[simp] theorem State.withChange_store (v : Option ChangeRecord) : (s.withChange v).store = s.store := rfl
@[simp] theorem State.withChange_pool (v : Option ChangeRecord) : (s.withChange v).pool = s.pool := rfl
@[simp] theorem State.withChange_slots (v : Option ChangeRecord) : (s.withChange v).slots = s.slots := rfl
@[simp] theorem State.withChange_faultRecord (v : Option ChangeRecord) : (s.withChange v).faultRecord = s.faultRecord := rfl
@[simp] theorem State.withChange_arbiter (v : Option ChangeRecord) : (s.withChange v).arbiter = s.arbiter := rfl
@[simp] theorem State.withChange_scan (v : Option ChangeRecord) : (s.withChange v).scan = s.scan := rfl
@[simp] theorem State.withChange_trace (v : Option ChangeRecord) : (s.withChange v).trace = s.trace := rfl
@[simp] theorem State.withChange_walk (v : Option ChangeRecord) : (s.withChange v).walk = s.walk := rfl
@[simp] theorem State.withChange_run (v : Option ChangeRecord) : (s.withChange v).run = s.run := rfl
@[simp] theorem State.withChange_seq (v : Option ChangeRecord) : (s.withChange v).seq = s.seq := rfl
@[simp] theorem State.withChange_queue (v : Option ChangeRecord) : (s.withChange v).queue = s.queue := rfl
@[simp] theorem State.withChange_change (v : Option ChangeRecord) : (s.withChange v).change = v := rfl
@[simp] theorem State.withChange_ring (v : Option ChangeRecord) : (s.withChange v).ring = s.ring := rfl
@[simp] theorem State.withChange_heads (v : Option ChangeRecord) : (s.withChange v).heads = s.heads := rfl
@[simp] theorem State.withChange_inhibit (v : Option ChangeRecord) : (s.withChange v).inhibit = s.inhibit := rfl
@[simp] theorem State.withChange_repairs (v : Option ChangeRecord) : (s.withChange v).repairs = s.repairs := rfl
@[simp] theorem State.withChange_events (v : Option ChangeRecord) : (s.withChange v).events = s.events := rfl
@[simp] theorem State.withChange_classes (v : Option ChangeRecord) : (s.withChange v).classes = s.classes := rfl
@[simp] theorem State.withChange_timeTag (v : Option ChangeRecord) : (s.withChange v).timeTag = s.timeTag := rfl
@[simp] theorem State.withChange_pending (v : Option ChangeRecord) : (s.withChange v).pending = s.pending := rfl

/-! ### ring -/

@[simp] theorem State.withRing_power (v : HeadRing) : (s.withRing v).power = s.power := rfl
@[simp] theorem State.withRing_portP (v : HeadRing) : (s.withRing v).portP = s.portP := rfl
@[simp] theorem State.withRing_portM (v : HeadRing) : (s.withRing v).portM = s.portM := rfl
@[simp] theorem State.withRing_constants (v : HeadRing) : (s.withRing v).constants = s.constants := rfl
@[simp] theorem State.withRing_store (v : HeadRing) : (s.withRing v).store = s.store := rfl
@[simp] theorem State.withRing_pool (v : HeadRing) : (s.withRing v).pool = s.pool := rfl
@[simp] theorem State.withRing_slots (v : HeadRing) : (s.withRing v).slots = s.slots := rfl
@[simp] theorem State.withRing_faultRecord (v : HeadRing) : (s.withRing v).faultRecord = s.faultRecord := rfl
@[simp] theorem State.withRing_arbiter (v : HeadRing) : (s.withRing v).arbiter = s.arbiter := rfl
@[simp] theorem State.withRing_scan (v : HeadRing) : (s.withRing v).scan = s.scan := rfl
@[simp] theorem State.withRing_trace (v : HeadRing) : (s.withRing v).trace = s.trace := rfl
@[simp] theorem State.withRing_walk (v : HeadRing) : (s.withRing v).walk = s.walk := rfl
@[simp] theorem State.withRing_run (v : HeadRing) : (s.withRing v).run = s.run := rfl
@[simp] theorem State.withRing_seq (v : HeadRing) : (s.withRing v).seq = s.seq := rfl
@[simp] theorem State.withRing_queue (v : HeadRing) : (s.withRing v).queue = s.queue := rfl
@[simp] theorem State.withRing_change (v : HeadRing) : (s.withRing v).change = s.change := rfl
@[simp] theorem State.withRing_ring (v : HeadRing) : (s.withRing v).ring = v := rfl
@[simp] theorem State.withRing_heads (v : HeadRing) : (s.withRing v).heads = s.heads := rfl
@[simp] theorem State.withRing_inhibit (v : HeadRing) : (s.withRing v).inhibit = s.inhibit := rfl
@[simp] theorem State.withRing_repairs (v : HeadRing) : (s.withRing v).repairs = s.repairs := rfl
@[simp] theorem State.withRing_events (v : HeadRing) : (s.withRing v).events = s.events := rfl
@[simp] theorem State.withRing_classes (v : HeadRing) : (s.withRing v).classes = s.classes := rfl
@[simp] theorem State.withRing_timeTag (v : HeadRing) : (s.withRing v).timeTag = s.timeTag := rfl
@[simp] theorem State.withRing_pending (v : HeadRing) : (s.withRing v).pending = s.pending := rfl

/-! ### heads -/

@[simp] theorem State.withHeads_power (v : Table HeadRecord) : (s.withHeads v).power = s.power := rfl
@[simp] theorem State.withHeads_portP (v : Table HeadRecord) : (s.withHeads v).portP = s.portP := rfl
@[simp] theorem State.withHeads_portM (v : Table HeadRecord) : (s.withHeads v).portM = s.portM := rfl
@[simp] theorem State.withHeads_constants (v : Table HeadRecord) : (s.withHeads v).constants = s.constants := rfl
@[simp] theorem State.withHeads_store (v : Table HeadRecord) : (s.withHeads v).store = s.store := rfl
@[simp] theorem State.withHeads_pool (v : Table HeadRecord) : (s.withHeads v).pool = s.pool := rfl
@[simp] theorem State.withHeads_slots (v : Table HeadRecord) : (s.withHeads v).slots = s.slots := rfl
@[simp] theorem State.withHeads_faultRecord (v : Table HeadRecord) : (s.withHeads v).faultRecord = s.faultRecord := rfl
@[simp] theorem State.withHeads_arbiter (v : Table HeadRecord) : (s.withHeads v).arbiter = s.arbiter := rfl
@[simp] theorem State.withHeads_scan (v : Table HeadRecord) : (s.withHeads v).scan = s.scan := rfl
@[simp] theorem State.withHeads_trace (v : Table HeadRecord) : (s.withHeads v).trace = s.trace := rfl
@[simp] theorem State.withHeads_walk (v : Table HeadRecord) : (s.withHeads v).walk = s.walk := rfl
@[simp] theorem State.withHeads_run (v : Table HeadRecord) : (s.withHeads v).run = s.run := rfl
@[simp] theorem State.withHeads_seq (v : Table HeadRecord) : (s.withHeads v).seq = s.seq := rfl
@[simp] theorem State.withHeads_queue (v : Table HeadRecord) : (s.withHeads v).queue = s.queue := rfl
@[simp] theorem State.withHeads_change (v : Table HeadRecord) : (s.withHeads v).change = s.change := rfl
@[simp] theorem State.withHeads_ring (v : Table HeadRecord) : (s.withHeads v).ring = s.ring := rfl
@[simp] theorem State.withHeads_heads (v : Table HeadRecord) : (s.withHeads v).heads = v := rfl
@[simp] theorem State.withHeads_inhibit (v : Table HeadRecord) : (s.withHeads v).inhibit = s.inhibit := rfl
@[simp] theorem State.withHeads_repairs (v : Table HeadRecord) : (s.withHeads v).repairs = s.repairs := rfl
@[simp] theorem State.withHeads_events (v : Table HeadRecord) : (s.withHeads v).events = s.events := rfl
@[simp] theorem State.withHeads_classes (v : Table HeadRecord) : (s.withHeads v).classes = s.classes := rfl
@[simp] theorem State.withHeads_timeTag (v : Table HeadRecord) : (s.withHeads v).timeTag = s.timeTag := rfl
@[simp] theorem State.withHeads_pending (v : Table HeadRecord) : (s.withHeads v).pending = s.pending := rfl

/-! ### inhibit -/

@[simp] theorem State.withInhibit_power (v : Table (BitVec 16)) : (s.withInhibit v).power = s.power := rfl
@[simp] theorem State.withInhibit_portP (v : Table (BitVec 16)) : (s.withInhibit v).portP = s.portP := rfl
@[simp] theorem State.withInhibit_portM (v : Table (BitVec 16)) : (s.withInhibit v).portM = s.portM := rfl
@[simp] theorem State.withInhibit_constants (v : Table (BitVec 16)) : (s.withInhibit v).constants = s.constants := rfl
@[simp] theorem State.withInhibit_store (v : Table (BitVec 16)) : (s.withInhibit v).store = s.store := rfl
@[simp] theorem State.withInhibit_pool (v : Table (BitVec 16)) : (s.withInhibit v).pool = s.pool := rfl
@[simp] theorem State.withInhibit_slots (v : Table (BitVec 16)) : (s.withInhibit v).slots = s.slots := rfl
@[simp] theorem State.withInhibit_faultRecord (v : Table (BitVec 16)) : (s.withInhibit v).faultRecord = s.faultRecord := rfl
@[simp] theorem State.withInhibit_arbiter (v : Table (BitVec 16)) : (s.withInhibit v).arbiter = s.arbiter := rfl
@[simp] theorem State.withInhibit_scan (v : Table (BitVec 16)) : (s.withInhibit v).scan = s.scan := rfl
@[simp] theorem State.withInhibit_trace (v : Table (BitVec 16)) : (s.withInhibit v).trace = s.trace := rfl
@[simp] theorem State.withInhibit_walk (v : Table (BitVec 16)) : (s.withInhibit v).walk = s.walk := rfl
@[simp] theorem State.withInhibit_run (v : Table (BitVec 16)) : (s.withInhibit v).run = s.run := rfl
@[simp] theorem State.withInhibit_seq (v : Table (BitVec 16)) : (s.withInhibit v).seq = s.seq := rfl
@[simp] theorem State.withInhibit_queue (v : Table (BitVec 16)) : (s.withInhibit v).queue = s.queue := rfl
@[simp] theorem State.withInhibit_change (v : Table (BitVec 16)) : (s.withInhibit v).change = s.change := rfl
@[simp] theorem State.withInhibit_ring (v : Table (BitVec 16)) : (s.withInhibit v).ring = s.ring := rfl
@[simp] theorem State.withInhibit_heads (v : Table (BitVec 16)) : (s.withInhibit v).heads = s.heads := rfl
@[simp] theorem State.withInhibit_inhibit (v : Table (BitVec 16)) : (s.withInhibit v).inhibit = v := rfl
@[simp] theorem State.withInhibit_repairs (v : Table (BitVec 16)) : (s.withInhibit v).repairs = s.repairs := rfl
@[simp] theorem State.withInhibit_events (v : Table (BitVec 16)) : (s.withInhibit v).events = s.events := rfl
@[simp] theorem State.withInhibit_classes (v : Table (BitVec 16)) : (s.withInhibit v).classes = s.classes := rfl
@[simp] theorem State.withInhibit_timeTag (v : Table (BitVec 16)) : (s.withInhibit v).timeTag = s.timeTag := rfl
@[simp] theorem State.withInhibit_pending (v : Table (BitVec 16)) : (s.withInhibit v).pending = s.pending := rfl

/-! ### repairs -/

@[simp] theorem State.withRepairs_power (v : List RepairEntry) : (s.withRepairs v).power = s.power := rfl
@[simp] theorem State.withRepairs_portP (v : List RepairEntry) : (s.withRepairs v).portP = s.portP := rfl
@[simp] theorem State.withRepairs_portM (v : List RepairEntry) : (s.withRepairs v).portM = s.portM := rfl
@[simp] theorem State.withRepairs_constants (v : List RepairEntry) : (s.withRepairs v).constants = s.constants := rfl
@[simp] theorem State.withRepairs_store (v : List RepairEntry) : (s.withRepairs v).store = s.store := rfl
@[simp] theorem State.withRepairs_pool (v : List RepairEntry) : (s.withRepairs v).pool = s.pool := rfl
@[simp] theorem State.withRepairs_slots (v : List RepairEntry) : (s.withRepairs v).slots = s.slots := rfl
@[simp] theorem State.withRepairs_faultRecord (v : List RepairEntry) : (s.withRepairs v).faultRecord = s.faultRecord := rfl
@[simp] theorem State.withRepairs_arbiter (v : List RepairEntry) : (s.withRepairs v).arbiter = s.arbiter := rfl
@[simp] theorem State.withRepairs_scan (v : List RepairEntry) : (s.withRepairs v).scan = s.scan := rfl
@[simp] theorem State.withRepairs_trace (v : List RepairEntry) : (s.withRepairs v).trace = s.trace := rfl
@[simp] theorem State.withRepairs_walk (v : List RepairEntry) : (s.withRepairs v).walk = s.walk := rfl
@[simp] theorem State.withRepairs_run (v : List RepairEntry) : (s.withRepairs v).run = s.run := rfl
@[simp] theorem State.withRepairs_seq (v : List RepairEntry) : (s.withRepairs v).seq = s.seq := rfl
@[simp] theorem State.withRepairs_queue (v : List RepairEntry) : (s.withRepairs v).queue = s.queue := rfl
@[simp] theorem State.withRepairs_change (v : List RepairEntry) : (s.withRepairs v).change = s.change := rfl
@[simp] theorem State.withRepairs_ring (v : List RepairEntry) : (s.withRepairs v).ring = s.ring := rfl
@[simp] theorem State.withRepairs_heads (v : List RepairEntry) : (s.withRepairs v).heads = s.heads := rfl
@[simp] theorem State.withRepairs_inhibit (v : List RepairEntry) : (s.withRepairs v).inhibit = s.inhibit := rfl
@[simp] theorem State.withRepairs_repairs (v : List RepairEntry) : (s.withRepairs v).repairs = v := rfl
@[simp] theorem State.withRepairs_events (v : List RepairEntry) : (s.withRepairs v).events = s.events := rfl
@[simp] theorem State.withRepairs_classes (v : List RepairEntry) : (s.withRepairs v).classes = s.classes := rfl
@[simp] theorem State.withRepairs_timeTag (v : List RepairEntry) : (s.withRepairs v).timeTag = s.timeTag := rfl
@[simp] theorem State.withRepairs_pending (v : List RepairEntry) : (s.withRepairs v).pending = s.pending := rfl

/-! ### events -/

@[simp] theorem State.withEvents_power (v : List EventEntry) : (s.withEvents v).power = s.power := rfl
@[simp] theorem State.withEvents_portP (v : List EventEntry) : (s.withEvents v).portP = s.portP := rfl
@[simp] theorem State.withEvents_portM (v : List EventEntry) : (s.withEvents v).portM = s.portM := rfl
@[simp] theorem State.withEvents_constants (v : List EventEntry) : (s.withEvents v).constants = s.constants := rfl
@[simp] theorem State.withEvents_store (v : List EventEntry) : (s.withEvents v).store = s.store := rfl
@[simp] theorem State.withEvents_pool (v : List EventEntry) : (s.withEvents v).pool = s.pool := rfl
@[simp] theorem State.withEvents_slots (v : List EventEntry) : (s.withEvents v).slots = s.slots := rfl
@[simp] theorem State.withEvents_faultRecord (v : List EventEntry) : (s.withEvents v).faultRecord = s.faultRecord := rfl
@[simp] theorem State.withEvents_arbiter (v : List EventEntry) : (s.withEvents v).arbiter = s.arbiter := rfl
@[simp] theorem State.withEvents_scan (v : List EventEntry) : (s.withEvents v).scan = s.scan := rfl
@[simp] theorem State.withEvents_trace (v : List EventEntry) : (s.withEvents v).trace = s.trace := rfl
@[simp] theorem State.withEvents_walk (v : List EventEntry) : (s.withEvents v).walk = s.walk := rfl
@[simp] theorem State.withEvents_run (v : List EventEntry) : (s.withEvents v).run = s.run := rfl
@[simp] theorem State.withEvents_seq (v : List EventEntry) : (s.withEvents v).seq = s.seq := rfl
@[simp] theorem State.withEvents_queue (v : List EventEntry) : (s.withEvents v).queue = s.queue := rfl
@[simp] theorem State.withEvents_change (v : List EventEntry) : (s.withEvents v).change = s.change := rfl
@[simp] theorem State.withEvents_ring (v : List EventEntry) : (s.withEvents v).ring = s.ring := rfl
@[simp] theorem State.withEvents_heads (v : List EventEntry) : (s.withEvents v).heads = s.heads := rfl
@[simp] theorem State.withEvents_inhibit (v : List EventEntry) : (s.withEvents v).inhibit = s.inhibit := rfl
@[simp] theorem State.withEvents_repairs (v : List EventEntry) : (s.withEvents v).repairs = s.repairs := rfl
@[simp] theorem State.withEvents_events (v : List EventEntry) : (s.withEvents v).events = v := rfl
@[simp] theorem State.withEvents_classes (v : List EventEntry) : (s.withEvents v).classes = s.classes := rfl
@[simp] theorem State.withEvents_timeTag (v : List EventEntry) : (s.withEvents v).timeTag = s.timeTag := rfl
@[simp] theorem State.withEvents_pending (v : List EventEntry) : (s.withEvents v).pending = s.pending := rfl

/-! ### classes -/

@[simp] theorem State.withClasses_power (v : Table ClassFlags) : (s.withClasses v).power = s.power := rfl
@[simp] theorem State.withClasses_portP (v : Table ClassFlags) : (s.withClasses v).portP = s.portP := rfl
@[simp] theorem State.withClasses_portM (v : Table ClassFlags) : (s.withClasses v).portM = s.portM := rfl
@[simp] theorem State.withClasses_constants (v : Table ClassFlags) : (s.withClasses v).constants = s.constants := rfl
@[simp] theorem State.withClasses_store (v : Table ClassFlags) : (s.withClasses v).store = s.store := rfl
@[simp] theorem State.withClasses_pool (v : Table ClassFlags) : (s.withClasses v).pool = s.pool := rfl
@[simp] theorem State.withClasses_slots (v : Table ClassFlags) : (s.withClasses v).slots = s.slots := rfl
@[simp] theorem State.withClasses_faultRecord (v : Table ClassFlags) : (s.withClasses v).faultRecord = s.faultRecord := rfl
@[simp] theorem State.withClasses_arbiter (v : Table ClassFlags) : (s.withClasses v).arbiter = s.arbiter := rfl
@[simp] theorem State.withClasses_scan (v : Table ClassFlags) : (s.withClasses v).scan = s.scan := rfl
@[simp] theorem State.withClasses_trace (v : Table ClassFlags) : (s.withClasses v).trace = s.trace := rfl
@[simp] theorem State.withClasses_walk (v : Table ClassFlags) : (s.withClasses v).walk = s.walk := rfl
@[simp] theorem State.withClasses_run (v : Table ClassFlags) : (s.withClasses v).run = s.run := rfl
@[simp] theorem State.withClasses_seq (v : Table ClassFlags) : (s.withClasses v).seq = s.seq := rfl
@[simp] theorem State.withClasses_queue (v : Table ClassFlags) : (s.withClasses v).queue = s.queue := rfl
@[simp] theorem State.withClasses_change (v : Table ClassFlags) : (s.withClasses v).change = s.change := rfl
@[simp] theorem State.withClasses_ring (v : Table ClassFlags) : (s.withClasses v).ring = s.ring := rfl
@[simp] theorem State.withClasses_heads (v : Table ClassFlags) : (s.withClasses v).heads = s.heads := rfl
@[simp] theorem State.withClasses_inhibit (v : Table ClassFlags) : (s.withClasses v).inhibit = s.inhibit := rfl
@[simp] theorem State.withClasses_repairs (v : Table ClassFlags) : (s.withClasses v).repairs = s.repairs := rfl
@[simp] theorem State.withClasses_events (v : Table ClassFlags) : (s.withClasses v).events = s.events := rfl
@[simp] theorem State.withClasses_classes (v : Table ClassFlags) : (s.withClasses v).classes = v := rfl
@[simp] theorem State.withClasses_timeTag (v : Table ClassFlags) : (s.withClasses v).timeTag = s.timeTag := rfl
@[simp] theorem State.withClasses_pending (v : Table ClassFlags) : (s.withClasses v).pending = s.pending := rfl

/-! ### timeTag -/

@[simp] theorem State.withTimeTag_power (v : TimeTag) : (s.withTimeTag v).power = s.power := rfl
@[simp] theorem State.withTimeTag_portP (v : TimeTag) : (s.withTimeTag v).portP = s.portP := rfl
@[simp] theorem State.withTimeTag_portM (v : TimeTag) : (s.withTimeTag v).portM = s.portM := rfl
@[simp] theorem State.withTimeTag_constants (v : TimeTag) : (s.withTimeTag v).constants = s.constants := rfl
@[simp] theorem State.withTimeTag_store (v : TimeTag) : (s.withTimeTag v).store = s.store := rfl
@[simp] theorem State.withTimeTag_pool (v : TimeTag) : (s.withTimeTag v).pool = s.pool := rfl
@[simp] theorem State.withTimeTag_slots (v : TimeTag) : (s.withTimeTag v).slots = s.slots := rfl
@[simp] theorem State.withTimeTag_faultRecord (v : TimeTag) : (s.withTimeTag v).faultRecord = s.faultRecord := rfl
@[simp] theorem State.withTimeTag_arbiter (v : TimeTag) : (s.withTimeTag v).arbiter = s.arbiter := rfl
@[simp] theorem State.withTimeTag_scan (v : TimeTag) : (s.withTimeTag v).scan = s.scan := rfl
@[simp] theorem State.withTimeTag_trace (v : TimeTag) : (s.withTimeTag v).trace = s.trace := rfl
@[simp] theorem State.withTimeTag_walk (v : TimeTag) : (s.withTimeTag v).walk = s.walk := rfl
@[simp] theorem State.withTimeTag_run (v : TimeTag) : (s.withTimeTag v).run = s.run := rfl
@[simp] theorem State.withTimeTag_seq (v : TimeTag) : (s.withTimeTag v).seq = s.seq := rfl
@[simp] theorem State.withTimeTag_queue (v : TimeTag) : (s.withTimeTag v).queue = s.queue := rfl
@[simp] theorem State.withTimeTag_change (v : TimeTag) : (s.withTimeTag v).change = s.change := rfl
@[simp] theorem State.withTimeTag_ring (v : TimeTag) : (s.withTimeTag v).ring = s.ring := rfl
@[simp] theorem State.withTimeTag_heads (v : TimeTag) : (s.withTimeTag v).heads = s.heads := rfl
@[simp] theorem State.withTimeTag_inhibit (v : TimeTag) : (s.withTimeTag v).inhibit = s.inhibit := rfl
@[simp] theorem State.withTimeTag_repairs (v : TimeTag) : (s.withTimeTag v).repairs = s.repairs := rfl
@[simp] theorem State.withTimeTag_events (v : TimeTag) : (s.withTimeTag v).events = s.events := rfl
@[simp] theorem State.withTimeTag_classes (v : TimeTag) : (s.withTimeTag v).classes = s.classes := rfl
@[simp] theorem State.withTimeTag_timeTag (v : TimeTag) : (s.withTimeTag v).timeTag = v := rfl
@[simp] theorem State.withTimeTag_pending (v : TimeTag) : (s.withTimeTag v).pending = s.pending := rfl

/-! ### pending -/

@[simp] theorem State.withPending_power (v : List Instr) : (s.withPending v).power = s.power := rfl
@[simp] theorem State.withPending_portP (v : List Instr) : (s.withPending v).portP = s.portP := rfl
@[simp] theorem State.withPending_portM (v : List Instr) : (s.withPending v).portM = s.portM := rfl
@[simp] theorem State.withPending_constants (v : List Instr) : (s.withPending v).constants = s.constants := rfl
@[simp] theorem State.withPending_store (v : List Instr) : (s.withPending v).store = s.store := rfl
@[simp] theorem State.withPending_pool (v : List Instr) : (s.withPending v).pool = s.pool := rfl
@[simp] theorem State.withPending_slots (v : List Instr) : (s.withPending v).slots = s.slots := rfl
@[simp] theorem State.withPending_faultRecord (v : List Instr) : (s.withPending v).faultRecord = s.faultRecord := rfl
@[simp] theorem State.withPending_arbiter (v : List Instr) : (s.withPending v).arbiter = s.arbiter := rfl
@[simp] theorem State.withPending_scan (v : List Instr) : (s.withPending v).scan = s.scan := rfl
@[simp] theorem State.withPending_trace (v : List Instr) : (s.withPending v).trace = s.trace := rfl
@[simp] theorem State.withPending_walk (v : List Instr) : (s.withPending v).walk = s.walk := rfl
@[simp] theorem State.withPending_run (v : List Instr) : (s.withPending v).run = s.run := rfl
@[simp] theorem State.withPending_seq (v : List Instr) : (s.withPending v).seq = s.seq := rfl
@[simp] theorem State.withPending_queue (v : List Instr) : (s.withPending v).queue = s.queue := rfl
@[simp] theorem State.withPending_change (v : List Instr) : (s.withPending v).change = s.change := rfl
@[simp] theorem State.withPending_ring (v : List Instr) : (s.withPending v).ring = s.ring := rfl
@[simp] theorem State.withPending_heads (v : List Instr) : (s.withPending v).heads = s.heads := rfl
@[simp] theorem State.withPending_inhibit (v : List Instr) : (s.withPending v).inhibit = s.inhibit := rfl
@[simp] theorem State.withPending_repairs (v : List Instr) : (s.withPending v).repairs = s.repairs := rfl
@[simp] theorem State.withPending_events (v : List Instr) : (s.withPending v).events = s.events := rfl
@[simp] theorem State.withPending_classes (v : List Instr) : (s.withPending v).classes = s.classes := rfl
@[simp] theorem State.withPending_timeTag (v : List Instr) : (s.withPending v).timeTag = s.timeTag := rfl
@[simp] theorem State.withPending_pending (v : List Instr) : (s.withPending v).pending = v := rfl

end Sys2Proof.Machine
end

