-- ==== Sys2Proof/Laws/Tables.lean ====
section
/-! SUPPORT. The laws of the sparse tables: a read after a write, and that every write keeps the canonical form; the same
for each accessor of the state; and that every operation over the Design Store keeps its canonical form. -/

namespace Sys2Proof.Machine

open Sys2Proof

section tables

variable {α : Type}

/-! ### A read after a write -/

theorem Table.get_erase (dflt : Nat → α) (k j : Nat) (t : Table α) :
    Table.get dflt (Table.erase k t) j = if j = k then dflt j else Table.get dflt t j := by
  induction t with
  | nil => simp [Table.erase, Table.get]
  | cons e rest ih =>
    obtain ⟨a, v⟩ := e
    simp only [Table.erase] at ih
    by_cases h : a = k
    · subst h
      rcases eq_or_ne j a with rfl | hj
      · simpa [Table.erase] using ih
      · simpa [Table.erase, Table.get, hj, Ne.symm hj] using ih
    · rcases eq_or_ne a j with rfl | hj
      · simp [Table.erase, Table.get, h]
      · simpa [Table.erase, Table.get, h, hj] using ih

theorem Table.get_place (dflt : Nat → α) (k j : Nat) (v : α) (t : Table α) (h : ∀ e ∈ t, e.1 ≠ k) :
    Table.get dflt (Table.place k v t) j = if j = k then v else Table.get dflt t j := by
  induction t with
  | nil => simp [Table.place, Table.get, eq_comm]
  | cons e rest ih =>
    obtain ⟨a, w⟩ := e
    have ha : a ≠ k := h (a, w) (by simp)
    have ih := ih fun e he => h e (by simp [he])
    by_cases lt : k < a
    · simp [Table.place, lt, Table.get, eq_comm]
    · rcases eq_or_ne a j with rfl | hj
      · simp [Table.place, lt, Table.get, ha]
      · simpa [Table.place, lt, Table.get, hj] using ih

theorem Table.mem_erase {k : Nat} {t : Table α} {e : Nat × α} : e ∈ Table.erase k t ↔ e ∈ t ∧ e.1 ≠ k := by
  simp [Table.erase]

/-- A read after a write: the value written at its number, and every other number as it was. -/
theorem Table.get_set [DecidableEq α] (dflt : Nat → α) (k j : Nat) (v : α) (t : Table α) :
    Table.get dflt (Table.set dflt k v t) j = if j = k then v else Table.get dflt t j := by
  unfold Table.set
  split
  · next h => rw [Table.get_erase]; split <;> simp_all
  · rw [Table.get_place _ _ _ _ _ fun e he => (Table.mem_erase.mp he).2, Table.get_erase]
    split <;> simp

/-! ### The canonical form -/

theorem Table.mem_place {k : Nat} {v : α} {t : Table α} {e : Nat × α} :
    e ∈ Table.place k v t ↔ e = (k, v) ∨ e ∈ t := by
  induction t with
  | nil => simp [Table.place]
  | cons a rest ih =>
    obtain ⟨n, w⟩ := a
    by_cases lt : k < n
    · simp [Table.place, lt]
    · simp only [Table.place, lt, if_false, List.mem_cons, ih]; tauto

theorem Table.place_sorted {k : Nat} {v : α} {t : Table α} (h : t.Pairwise fun a b => a.1 < b.1)
    (n : ∀ e ∈ t, e.1 ≠ k) : (Table.place k v t).Pairwise fun a b => a.1 < b.1 := by
  induction t with
  | nil => simp [Table.place]
  | cons a rest ih =>
    obtain ⟨m, w⟩ := a
    have hm : m ≠ k := n (m, w) (by simp)
    rw [List.pairwise_cons] at h
    by_cases lt : k < m
    · simp only [Table.place, lt, if_true, List.pairwise_cons]
      refine ⟨fun e he => ?_, h.1, h.2⟩
      rcases List.mem_cons.mp he with rfl | he
      · exact lt
      · exact lt.trans (h.1 e he)
    · simp only [Table.place, lt, if_false, List.pairwise_cons]
      refine ⟨fun e he => ?_, ih h.2 fun e he => n e (by simp [he])⟩
      rcases Table.mem_place.mp he with rfl | he
      · show m < k; omega
      · exact h.1 e he

theorem Table.wf_iff [DecidableEq α] {dflt : Nat → α} {t : Table α} :
    Table.wf dflt t = true ↔ (t.Pairwise fun a b => a.1 < b.1) ∧ ∀ e ∈ t, e.2 ≠ dflt e.1 := by
  simp [Table.wf]

/-- A table with nothing listed is in canonical form. -/
theorem Table.wf_nil [DecidableEq α] (dflt : Nat → α) : Table.wf dflt ([] : Table α) = true := rfl

/-- Taking entries out keeps the canonical form. -/
theorem Table.wf_filter [DecidableEq α] {dflt : Nat → α} {t : Table α} (p : Nat × α → Bool)
    (h : Table.wf dflt t = true) : Table.wf dflt (t.filter p) = true := by
  rw [Table.wf_iff] at h ⊢
  exact ⟨h.1.filter _, fun e he => h.2 e (List.mem_filter.mp he).1⟩

/-- A write keeps the canonical form. -/
theorem Table.wf_set [DecidableEq α] {dflt : Nat → α} (k : Nat) (v : α) {t : Table α}
    (h : Table.wf dflt t = true) : Table.wf dflt (Table.set dflt k v t) = true := by
  have e : Table.wf dflt (Table.erase k t) = true := Table.wf_filter _ h
  unfold Table.set
  split
  · exact e
  · next ne =>
    rw [Table.wf_iff] at e ⊢
    refine ⟨Table.place_sorted e.1 fun a ha => (Table.mem_erase.mp ha).2, fun a ha => ?_⟩
    rcases Table.mem_place.mp ha with rfl | ha
    · exact ne
    · exact e.2 a ha

/-- Two tables in canonical form that read alike are equal: equal memories are equal data. -/
theorem Table.ext [DecidableEq α] {dflt : Nat → α} {t u : Table α} (ht : Table.wf dflt t = true)
    (hu : Table.wf dflt u = true) (h : ∀ k, Table.get dflt t k = Table.get dflt u k) : t = u := by
  have miss : ∀ {x : Table α} {k : Nat}, (∀ e ∈ x, k < e.1) → Table.get dflt x k = dflt k := by
    intro x k hx
    induction x with
    | nil => rfl
    | cons a rest ih =>
      obtain ⟨n, w⟩ := a
      have : k < n := hx (n, w) (by simp)
      simp only [Table.get, show n ≠ k by omega, if_false]
      exact ih fun e he => hx e (by simp [he])
  rw [Table.wf_iff] at ht hu
  induction t generalizing u with
  | nil =>
    cases u with
    | nil => rfl
    | cons b rest =>
      obtain ⟨m, w⟩ := b
      have := h m
      simp only [Table.get, if_true] at this
      exact absurd this.symm (hu.2 (m, w) (by simp))
  | cons a rest ih =>
    obtain ⟨n, v⟩ := a
    cases u with
    | nil =>
      have := h n
      simp only [Table.get, if_true] at this
      exact absurd this (ht.2 (n, v) (by simp))
    | cons b more =>
      obtain ⟨m, w⟩ := b
      have st := List.pairwise_cons.mp ht.1
      have su := List.pairwise_cons.mp hu.1
      have nm : n = m := by
        rcases lt_trichotomy n m with lt | rfl | lt
        · have := h n
          rw [miss (x := (m, w) :: more) (k := n)] at this
          · simp only [Table.get, if_true] at this
            exact absurd this (ht.2 (n, v) (by simp))
          · intro e he
            rcases List.mem_cons.mp he with rfl | he
            · exact lt
            · exact lt.trans (su.1 e he)
        · rfl
        · have := h m
          rw [miss (x := (n, v) :: rest) (k := m)] at this
          · simp only [Table.get, if_true] at this
            exact absurd this.symm (hu.2 (m, w) (by simp))
          · intro e he
            rcases List.mem_cons.mp he with rfl | he
            · exact lt
            · exact lt.trans (st.1 e he)
      subst nm
      have vw : v = w := by simpa [Table.get] using h n
      subst vw
      congr 1
      refine ih (u := more) ⟨st.2, fun e he => ht.2 e (List.mem_cons_of_mem _ he)⟩
        ⟨su.2, fun e he => hu.2 e (List.mem_cons_of_mem _ he)⟩ fun k => ?_
      rcases eq_or_ne n k with rfl | hk
      · rw [miss st.1, miss su.1]
      · simpa [Table.get, hk] using h k

end tables

/-! ### The accessors of the state -/

variable (s : State)

@[simp] theorem State.chunk_putChunk (n m : Nat) (c : Chunk) : (s.putChunk n c).chunk m = if m = n then c else s.chunk m :=
  Table.get_set _ _ _ _ _

@[simp] theorem State.slot_putSlot (k j : Nat) (r : SlotRecord) : (s.putSlot k r).slot j = if j = k then r else s.slot j :=
  Table.get_set _ _ _ _ _

@[simp] theorem State.head_putHead (h g : Nat) (r : HeadRecord) : (s.putHead h r).head g = if g = h then r else s.head g :=
  Table.get_set _ _ _ _ _

@[simp] theorem State.inhibitRow_putInhibitRow (h g : Nat) (row : BitVec 16) :
    (s.putInhibitRow h row).inhibitRow g = if g = h then row else s.inhibitRow g := Table.get_set _ _ _ _ _

@[simp] theorem State.ringRecord_putRingRecord (h g : Nat) (r : RingRecord) :
    (s.putRingRecord h r).ringRecord g = if g = h then r else s.ringRecord g := Table.get_set _ _ _ _ _

@[simp] theorem State.classOf_putClass (k j : Nat) (f : ClassFlags) :
    (s.putClass k f).classOf j = if j = k then f else s.classOf j := Table.get_set _ _ _ _ _

@[simp] theorem SlotRecord.colour_putColour (r : SlotRecord) (b c : Nat) (e : ColourEntry) :
    (r.putColour b e).colour c = if c = b then some e else r.colour c := Table.get_set (fun _ => none) b c (some e) r.colours

@[simp] theorem State.port_putPort (port other : Port) (v : PortState) :
    (s.putPort port v).port other = if other = port then v else s.port other := by
  cases port <;> cases other <;> rfl

/-- Writing a chunk changes the store alone. -/
theorem State.putChunk_eq (n : Nat) (c : Chunk) : s.putChunk n c = { s with store := (s.putChunk n c).store } := rfl

/-- Writing a slot record changes the slots alone. -/
theorem State.putSlot_eq (k : Nat) (r : SlotRecord) : s.putSlot k r = { s with slots := (s.putSlot k r).slots } := rfl

/-- Writing a head record changes the heads alone. -/
theorem State.putHead_eq (h : Nat) (r : HeadRecord) : s.putHead h r = { s with heads := (s.putHead h r).heads } := rfl

/-- Writing a ring record changes the ring records alone. -/
theorem State.putRingRecord_eq (h : Nat) (r : RingRecord) :
    s.putRingRecord h r = { s with ring := { s.ring with records := (s.putRingRecord h r).ring.records } } := rfl

/-! ### The canonical form of the Design Store -/

/-- The store after reset is in canonical form. -/
theorem State.storeCanonical_reset : State.reset.storeCanonical := rfl

variable {s}

/-- Writing a chunk keeps the canonical form of the store. -/
theorem State.storeCanonical_putChunk (n : Nat) (c : Chunk) (h : s.storeCanonical) : (s.putChunk n c).storeCanonical :=
  Table.wf_set n c h

/-- The canonical form of the store depends on the store alone. -/
theorem State.storeCanonical_congr {t : State} (e : t.store = s.store) (h : s.storeCanonical) : t.storeCanonical := by
  simpa [State.storeCanonical, e] using h

/-- Posting an event leaves the store. -/
theorem State.post_store (k : EventKind) (head : Nat) (param : BitVec 32) (target : Option Point) :
    (s.postTarget k head param target).store = s.store := by
  unfold State.postTarget; split <;> rfl

/-- A chunk read keeps the canonical form of the store. -/
theorem State.storeCanonical_readChunk (n : Nat) (h : s.storeCanonical) : (s.readChunk n).1.storeCanonical := by
  simp only [State.readChunk]
  split
  · split
    · exact h
    · exact State.storeCanonical_congr (State.post_store _ _ _ _) (State.storeCanonical_putChunk _ _ h)
    · exact h
  · exact h

/-- The reads of a request keep the canonical form of the store. -/
theorem State.storeCanonical_readSpans (spans : List Span) (h : s.storeCanonical) :
    (s.readSpans spans).1.storeCanonical := by
  induction spans generalizing s with
  | nil => exact h
  | cons sp rest ih =>
    have g : (s.readChunk sp.chunk).1.storeCanonical := State.storeCanonical_readChunk _ h
    unfold State.readSpans
    split
    · next e => rw [e] at g; exact g
    · next e =>
      rw [e] at g
      have := ih g
      split <;> (next e2 => rw [e2] at this; exact this)

/-- The second phase of a write request keeps the canonical form of the store. -/
theorem State.storeCanonical_writeSpans (index : Nat) (rs : List StitchRecord) (spans : List Span)
    (h : s.storeCanonical) : (s.writeSpans index rs spans).storeCanonical := by
  induction spans generalizing s with
  | nil => exact h
  | cons sp rest ih => exact ih (State.storeCanonical_putChunk _ _ h)

/-- A write request keeps the canonical form of the store. -/
theorem State.storeCanonical_writeRequest (index : Nat) (rs : List StitchRecord) (spans : List Span)
    (h : s.storeCanonical) : (s.writeRequest index rs spans).1.storeCanonical := by
  have g := State.storeCanonical_readSpans (s.firstPhaseSpans spans) h
  unfold State.writeRequest
  split
  · next e => rw [e] at g; exact g
  · next e => rw [e] at g; exact State.storeCanonical_writeSpans _ _ _ g

/-- Bits that change in the memory keep the canonical form of the store. -/
theorem State.storeCanonical_storeBitChange (n : Nat) (bits : List Nat) (h : s.storeCanonical) :
    (s.storeBitChange n bits).storeCanonical := by
  unfold State.storeBitChange
  split
  · exact State.storeCanonical_putChunk _ _ h
  · exact h

/-- Taking blocks from the pool keeps the canonical form of the store. -/
theorem State.storeCanonical_allocate (len : Nat) (h : s.storeCanonical) : (s.allocate len).1.storeCanonical := by
  simp only [State.allocate]
  exact State.storeCanonical_congr (s := (s.withStore _).putChunk _ _) rfl
    (State.storeCanonical_putChunk _ _ (Table.wf_filter (dflt := fun _ => Chunk.reset) _ h))

end Sys2Proof.Machine
end

