-- ==== Sys2Proof/Laws/Ops.lean ====
section
/-! SUPPORT. What each shared operation of Machine/Ops.lean can do, said once: which fields it may change and to what. -/

namespace Sys2Proof.Machine

open Sys2Proof

variable (s : State)

/-! ### Events -/

/-- Posting an event of a kind whose class has LOG clear does nothing. -/
theorem State.postTarget_of_not_log (k : EventKind) (head : Nat) (param : BitVec 32) (target : Option Point)
    (h : (s.classOf k.code).log = false) : s.postTarget k head param target = s := by
  simp [State.postTarget, h]

/-- Posting an event of a kind whose class has LOG set appends its entry and does nothing else. -/
theorem State.postTarget_of_log (k : EventKind) (head : Nat) (param : BitVec 32) (target : Option Point)
    (h : (s.classOf k.code).log = true) :
    s.postTarget k head param target = s.withEvents (appendEvent s.events
      { kind := k, head := head, param := param, cursor := s.run.cursor, time := s.timeTag.value, gap := false,
        target := target }) := by
  simp [State.postTarget, h]

/-- Posting an event changes the Event Queue alone. -/
theorem State.postTarget_eq (k : EventKind) (head : Nat) (param : BitVec 32) (target : Option Point) :
    ∃ q, s.postTarget k head param target = s.withEvents q := by
  cases h : (s.classOf k.code).log with
  | false => exact ⟨s.events, by rw [State.postTarget_of_not_log s k head param target h]; rfl⟩
  | true => exact ⟨_, State.postTarget_of_log s k head param target h⟩

theorem State.post_eq (k : EventKind) (head : Nat) (param : BitVec 32) : ∃ q, s.post k head param = s.withEvents q :=
  s.postTarget_eq k head param none

/-- The entry appended last is the last of the queue. -/
theorem appendEvent_getLast? (q : List EventEntry) (e : EventEntry) : (appendEvent q e).getLast? = some e := by
  unfold appendEvent
  split
  · simp
  · split
    · simp
    · next o rest _ =>
      show (({ o with gap := true } :: rest) ++ [e]).getLast? = some e
      rw [List.getLast?_append]
      simp

/-- Appending keeps the queue within its 64 entries. -/
theorem appendEvent_length {q : List EventEntry} (h : q.length ≤ 64) (e : EventEntry) : (appendEvent q e).length ≤ 64 := by
  unfold appendEvent
  split
  · next lt =>
    have : Config.eventEntries = 64 := rfl
    simp only [List.length_append, List.length_cons, List.length_nil]; omega
  · split
    · simp
    · next o rest eq =>
      have : (o :: rest).length = q.length - 1 := by rw [← eq, List.length_drop]
      simp only [List.length_cons] at this
      simp only [List.length_cons, List.length_append, List.length_nil, List.cons_append]; omega

/-! ### Frames and replies -/

@[simp] theorem State.putPort_power (port : Port) (v : PortState) : (s.putPort port v).power = s.power := by
  cases port <;> rfl
@[simp] theorem State.putPort_run (port : Port) (v : PortState) : (s.putPort port v).run = s.run := by
  cases port <;> rfl
@[simp] theorem State.putPort_events (port : Port) (v : PortState) : (s.putPort port v).events = s.events := by
  cases port <;> rfl
@[simp] theorem State.putPort_queue (port : Port) (v : PortState) : (s.putPort port v).queue = s.queue := by
  cases port <;> rfl
@[simp] theorem State.putPort_store (port : Port) (v : PortState) : (s.putPort port v).store = s.store := by
  cases port <;> rfl
@[simp] theorem State.putPort_slots (port : Port) (v : PortState) : (s.putPort port v).slots = s.slots := by
  cases port <;> rfl
@[simp] theorem State.putPort_pending (port : Port) (v : PortState) : (s.putPort port v).pending = s.pending := by
  cases port <;> rfl

/-- A reply writes the reply buffer of its port and nothing else. -/
theorem State.reply_eq (port : Port) (code : ReplyCode) (payload : List Byte) :
    s.reply port code payload = s.putPort port { s.port port with
      reply := .held { status := s.statusByte port, code := code, payload := payload } } := rfl

/-- A lost reply changes at most the mark of the port P request. -/
theorem State.loseReply_eq (port : Port) : ∃ a, s.loseReply port = s.withArbiter { s.arbiter with portP := a } := by
  cases port with
  | m => exact ⟨s.arbiter.portP, rfl⟩
  | p => exact ⟨_, rfl⟩

/-- With no port P request outstanding no reply is lost. -/
theorem State.loseReply_none (port : Port) (h : s.arbiter.portP = none) : s.loseReply port = s := by
  cases port with
  | m => rfl
  | p => simp only [State.loseReply, h, Option.map_none]; rw [← h]; rfl

/-- A frame that is taken is carried out by its body. -/
theorem State.onFrame_taken (port : Port) (body : State → State) (h : s.takesFrame port = true) :
    s.onFrame port body = body ((s.loseReply port).closeFrame port) := by
  simp [State.onFrame, h]

/-- A frame that is not taken ends and has no other effect. -/
theorem State.onFrame_untaken (port : Port) (body : State → State) (h : s.takesFrame port = false) :
    s.onFrame port body = s.closeFrame port := by
  simp [State.onFrame, h]

/-- While the reset input is held an event has no effect. -/
theorem State.onEvent_held (body : State → State) (h : s.power = .held) : s.onEvent body = s := by
  simp [State.onEvent, h]

/-- Otherwise it is carried out by its body. -/
theorem State.onEvent_acts (body : State → State) (h : s.power ≠ .held) : s.onEvent body = body s := by
  simp [State.onEvent, h]

/-! ### The store arbiter -/

@[simp] theorem Arbiter.request_putRequest (a : Arbiter) (r q : Requester) (v : RequestState) :
    (a.putRequest r v).request q = if q = r then v else a.request q := by
  cases r <;> cases q <;> rfl

@[simp] theorem Arbiter.holder_putRequest (a : Arbiter) (r : Requester) (v : RequestState) :
    (a.putRequest r v).holder = a.holder := by
  cases r <;> rfl

@[simp] theorem Arbiter.portP_putRequest (a : Arbiter) (r : Requester) (v : RequestState) :
    (a.putRequest r v).portP = a.portP := by
  cases r <;> rfl

/-- A path that is held is not granted again. -/
theorem Arbiter.grant_held {a : Arbiter} {x : PathHolder} (h : a.holder = some x) : a.grant = a := by
  simp [Arbiter.grant, h]

/-- Granting never touches the port P request. -/
theorem Arbiter.grant_portP (a : Arbiter) : a.grant.portP = a.portP := by
  have granted : ∀ r b, a.grantTo r = some b → b.portP = a.portP := by
    intro r b
    simp only [Arbiter.grantTo]
    split
    · intro h; cases h; exact Arbiter.portP_putRequest _ _ _
    · intro h; cases h
  unfold Arbiter.grant
  split
  · rfl
  · split
    · next e => exact granted _ _ e
    · split
      · next e => exact granted _ _ e
      · split
        · next e => exact granted _ _ e
        · split
          · next e => exact granted _ _ e
          · split <;> rfl

/-- Asking for a read changes the arbiter alone. -/
theorem State.askRead_eq (r : Requester) (x : StoreRead) : ∃ a, s.askRead r x = s.withArbiter a := by
  unfold State.askRead
  split
  · exact ⟨_, rfl⟩
  · exact ⟨s.arbiter, rfl⟩

/-- Dropping a read changes the arbiter alone. -/
theorem State.dropRead_eq (r : Requester) : ∃ a, s.dropRead r = s.withArbiter a := by
  unfold State.dropRead
  split
  · exact ⟨_, rfl⟩
  · exact ⟨_, rfl⟩
  · exact ⟨s.arbiter, rfl⟩

/-- The end of an access changes the arbiter alone. -/
theorem State.endAccess_eq (r : Requester) : ∃ a, s.endAccess r = s.withArbiter a := ⟨_, rfl⟩

/-! ### The access fault record -/

/-- A fault is handed to the access fault record alone, which stands frozen afterwards with its kinds in it. -/
theorem State.recordFault_eq (source : FaultSource) (command : Option FaultCommand) (slot index : Nat) (kinds : FaultKinds) :
    ∃ f, s.recordFault source command slot index kinds = s.withFaultRecord f ∧ f.frozen = true ∧
      f.kinds = if s.faultRecord.frozen then s.faultRecord.kinds.union kinds else kinds := by
  unfold State.recordFault
  split
  · next h => exact ⟨{ s.faultRecord with kinds := s.faultRecord.kinds.union kinds }, rfl, h, rfl⟩
  · exact ⟨⟨true, some source, command, some slot, some index, kinds⟩, rfl, rfl, rfl⟩

/-- Damage touches one READY slot and nothing else. -/
theorem State.damageSlot_eq (k : Nat) : ∃ q, s.damageSlot k = s.withSlots q := by
  unfold State.damageSlot
  split
  · exact ⟨_, rfl⟩
  · exact ⟨s.slots, rfl⟩

theorem State.slot_damageSlot (k j : Nat) : (s.damageSlot k).slot j =
    if j = k ∧ (s.slot k).state = .ready then { s.slot k with state := .damaged } else s.slot j := by
  unfold State.damageSlot
  split
  · next h => simp [h]
  · next h => simp [h]

/-! ### The run state -/

/-- A write of the run state changes it, and where preparation stops the chunk buffer and the Sequencer's request. -/
theorem State.setRunState_eq (v : RunState) : ∃ b a, s.setRunState v =
    ((s.withRun { s.run with state := v }).withSeq { s.seq with buffer := b }).withArbiter a := by
  unfold State.setRunState
  split
  · obtain ⟨a, h⟩ := ((s.withRun { s.run with state := v }).withSeq { s.seq with buffer := none }).dropRead_eq .sequencer
    exact ⟨none, a, h⟩
  · exact ⟨s.seq.buffer, s.arbiter, rfl⟩

/-- Outside RUNNING a write of the run state changes it alone. -/
theorem State.setRunState_of_not_running (v : RunState) (h : s.run.state ≠ .running) :
    s.setRunState v = s.withRun { s.run with state := v } := by
  simp [State.setRunState, h]

/-- Writing back the fields that a requested stop may change leaves the state as it is. -/
theorem State.eq_withOwn : s = (((s.withRun { s.run with state := s.run.state, stopReason := s.run.stopReason }).withChange
    s.change).withSeq { s.seq with buffer := s.seq.buffer }).withArbiter s.arbiter := by
  cases s
  rfl

/-- A stop requested by a block changes the run state, the stop reason, the action of a change in progress and, where
preparation stops, the chunk buffer and the Sequencer's request. -/
theorem State.requestStop_eq (reason : StopReason) : ∃ st r c b a, s.requestStop reason =
    (((s.withRun { s.run with state := st, stopReason := r }).withChange c).withSeq { s.seq with buffer := b }).withArbiter a := by
  have same : ∃ st r c b a, s = (((s.withRun { s.run with state := st, stopReason := r }).withChange c).withSeq
      { s.seq with buffer := b }).withArbiter a :=
    ⟨s.run.state, s.run.stopReason, s.change, s.seq.buffer, s.arbiter, s.eq_withOwn⟩
  unfold State.requestStop
  split
  · obtain ⟨b, a, h⟩ := s.setRunState_eq .stopping
    exact ⟨.stopping, reason, s.change, b, a, by rw [h]; rfl⟩
  · split
    · exact ⟨s.run.state, .repairDone, s.change, s.seq.buffer, s.arbiter, by cases s; rfl⟩
    · exact same
  · split
    · exact ⟨s.run.state, .fault, s.change.map fun c => { c with action := .pause }, s.seq.buffer, s.arbiter,
        by cases s; rfl⟩
    · exact same
  · exact same

/-- A stop requested in RUNNING makes the run STOPPING with its reason. -/
theorem State.requestStop_running (reason : StopReason) (h : s.run.state = .running) :
    (s.requestStop reason).run = { s.run with state := .stopping, stopReason := reason } := by
  obtain ⟨b, a, e⟩ := s.setRunState_eq .stopping
  simp [State.requestStop, h, State.setStopReason, e]

end Sys2Proof.Machine
end

