-- ==== Sys2Proof/Laws/Heads.lean ====
section
/-! SUPPORT. What each shared operation over the ring queue, the heads and the Repair List can do, said once. -/

namespace Sys2Proof.Machine

open Sys2Proof

variable (s : State)

/-! ### The ring request queue (R126) -/

/-- An offered request changes the request queue alone. -/
theorem State.offer_eq (r : RingRequest) : ∃ q, s.offer r = s.withRing { s.ring with requests := q } := by
  unfold State.offer
  split
  · exact ⟨_, rfl⟩
  · exact ⟨s.ring.requests, rfl⟩

/-- A request that may be queued stands in the queue. -/
theorem mem_coalesce (r : RingRequest) (q : List RingRequest) : r ∈ coalesce r q := by
  induction q with
  | nil => simp [coalesce]
  | cons a rest ih => unfold coalesce; split <;> simp [ih]

/-- Queueing a request keeps every request of another function or another head. -/
theorem mem_coalesce_of_ne {r x : RingRequest} {q : List RingRequest} (h : x ∈ q)
    (n : ¬ (x.function = r.function ∧ x.head = r.head)) : x ∈ coalesce r q := by
  induction q with
  | nil => cases h
  | cons a rest ih =>
    unfold coalesce
    split
    · next same =>
      rcases List.mem_cons.mp h with rfl | h
      · exact absurd same n
      · exact List.mem_cons_of_mem _ h
    · rcases List.mem_cons.mp h with rfl | h
      · simp
      · exact List.mem_cons_of_mem _ (ih h)

/-- Nothing but the request and what stood in the queue stands in it afterwards. -/
theorem of_mem_coalesce {r x : RingRequest} {q : List RingRequest} (h : x ∈ coalesce r q) : x = r ∨ x ∈ q := by
  induction q with
  | nil => simpa [coalesce] using h
  | cons a rest ih =>
    unfold coalesce at h
    split at h
    · rcases List.mem_cons.mp h with rfl | h
      · exact .inl rfl
      · exact .inr (List.mem_cons_of_mem _ h)
    · rcases List.mem_cons.mp h with rfl | h
      · exact .inr List.mem_cons_self
      · rcases ih h with e | h
        · exact .inl e
        · exact .inr (List.mem_cons_of_mem _ h)

/-- Offering a head's presser and lamp changes the request queue alone. -/
theorem State.offerState_eq (h : Nat) (st : HeadState) :
    ∃ q, s.offerState h st = s.withRing { s.ring with requests := q } := by
  have two : ∀ a b : RingRequest, ∃ q, (s.offer a).offer b = s.withRing { s.ring with requests := q } := by
    intro a b
    obtain ⟨q, e⟩ := s.offer_eq a
    obtain ⟨r, f⟩ := (s.offer a).offer_eq b
    exact ⟨r, by rw [f, e]; rfl⟩
  cases st
  case absent => exact ⟨s.ring.requests, rfl⟩
  case lost => exact ⟨s.ring.requests, rfl⟩
  all_goals exact two _ _

/-! ### The Repair List (R145) -/

theorem placeEntry_perm (e : RepairEntry) (l : List RepairEntry) : (placeEntry e l).Perm (e :: l) := by
  induction l with
  | nil => exact .refl _
  | cons a rest ih =>
    unfold placeEntry
    split
    · exact .refl _
    · exact (ih.cons a).trans (.swap e a rest)

/-- The list in order holds the entries it was given. -/
theorem sortEntries_perm (l : List RepairEntry) : (sortEntries l).Perm l := by
  induction l with
  | nil => exact .refl _
  | cons e rest ih => exact (placeEntry_perm e _).trans (ih.cons e)

@[simp] theorem mem_sortEntries {e : RepairEntry} {l : List RepairEntry} : e ∈ sortEntries l ↔ e ∈ l :=
  (sortEntries_perm l).mem_iff

theorem RepairEntry.before_iff (a b : RepairEntry) : a.before b = true ↔
    a.fromIndex < b.fromIndex ∨ (a.fromIndex = b.fromIndex ∧
      (a.head < b.head ∨ (a.head = b.head ∧ a.kind.rank ≤ b.kind.rank))) := by
  simp [RepairEntry.before]

/-- The order of the list is total. -/
theorem RepairEntry.before_total {a b : RepairEntry} (h : a.before b = false) : b.before a = true := by
  rw [RepairEntry.before_iff]
  have n : ¬ _ := fun x => absurd ((RepairEntry.before_iff a b).mpr x) (by simp [h])
  omega

/-- The order of the list is transitive. -/
theorem RepairEntry.before_trans {a b c : RepairEntry} (h : a.before b = true) (g : b.before c = true) :
    a.before c = true := by
  rw [RepairEntry.before_iff] at *
  omega

theorem placeEntry_sorted {e : RepairEntry} {l : List RepairEntry} (h : l.Pairwise fun a b => a.before b = true) :
    (placeEntry e l).Pairwise fun a b => a.before b = true := by
  induction l with
  | nil => simp [placeEntry]
  | cons a rest ih =>
    rw [List.pairwise_cons] at h
    unfold placeEntry
    split
    · next first =>
      refine List.pairwise_cons.mpr ⟨fun x hx => ?_, List.pairwise_cons.mpr h⟩
      rcases List.mem_cons.mp hx with rfl | hx
      · exact first
      · exact RepairEntry.before_trans first (h.1 x hx)
    · next later =>
      refine List.pairwise_cons.mpr ⟨fun x hx => ?_, ih h.2⟩
      rcases List.mem_cons.mp ((placeEntry_perm e rest).mem_iff.mp hx) with rfl | hx
      · exact RepairEntry.before_total (Bool.not_eq_true _ ▸ later)
      · exact h.1 x hx

/-- The list stands in its order. -/
theorem sortEntries_sorted (l : List RepairEntry) : (sortEntries l).Pairwise fun a b => a.before b = true := by
  induction l with
  | nil => exact .nil
  | cons e rest ih => exact placeEntry_sorted ih

/-- Writing the Repair List changes it and the outstanding-repairs flag alone. -/
theorem State.setRepairs_eq (l : List RepairEntry) : s.setRepairs l =
    (s.withRepairs (sortEntries l)).withRun
      { s.run with outstanding := if l = [] then false else s.run.outstanding } := by
  unfold State.setRepairs
  split <;> rfl

@[simp] theorem State.setRepairs_repairs (l : List RepairEntry) : (s.setRepairs l).repairs = sortEntries l := by
  rw [State.setRepairs_eq]; rfl

@[simp] theorem State.setRepairs_runState (l : List RepairEntry) : (s.setRepairs l).run.state = s.run.state := by
  rw [State.setRepairs_eq]; rfl

@[simp] theorem State.setRepairs_cursor (l : List RepairEntry) : (s.setRepairs l).run.cursor = s.run.cursor := by
  rw [State.setRepairs_eq]; rfl

@[simp] theorem State.setRepairs_head (l : List RepairEntry) (h : Nat) : (s.setRepairs l).head h = s.head h := by
  rw [State.setRepairs_eq]; rfl

/-! ### A change of head state (R134, R151) -/

/-- A change of head state writes one head record and changes the request queue, and nothing else. -/
theorem State.setHeadState_eq (h : Nat) (st : HeadState) (cause : Option HeadCause) :
    ∃ r q, s.setHeadState h st cause = (s.putHead h r).withRing { s.ring with requests := q } ∧
      r.state = st ∧ r.cause = cause ∧ r.needle = (s.head h).needle ∧ r.presserUp = (s.head h).presserUp ∧
      r.bobbinWarned = (s.head h).bobbinWarned ∧
      (st ≠ .active → r = { s.head h with state := st, cause := cause }) ∧
      (st = .active → r.noMotion = 0 ∧ r.tension = 0 ∧ r.lastMotion = s.run.cursor) := by
  simp only [State.setHeadState]
  obtain ⟨q, e⟩ := (s.putHead h (if st = .active then
    s.freshCounts { s.head h with state := st, cause := cause } else { s.head h with state := st, cause := cause })).offerState_eq h st
  by_cases a : st = .active
  · simp only [a, if_true] at e
    simp only [a, if_true]
    exact ⟨_, q, e, rfl, rfl, rfl, rfl, rfl, fun n => absurd rfl n, fun _ => ⟨rfl, rfl, rfl⟩⟩
  · simp only [a, if_false] at e
    simp only [a, if_false]
    exact ⟨_, q, e, rfl, rfl, rfl, rfl, rfl, fun _ => rfl, fun n => n.elim⟩

/-- After a change of head state the head has the state and the cause, and every other head is as it was. -/
theorem State.head_setHeadState (h g : Nat) (st : HeadState) (cause : Option HeadCause) :
    ((s.setHeadState h st cause).head h).state = st ∧ ((s.setHeadState h st cause).head h).cause = cause ∧
      (g ≠ h → (s.setHeadState h st cause).head g = s.head g) := by
  obtain ⟨r, q, e, a, b, -⟩ := s.setHeadState_eq h st cause
  have hd : ∀ k, (s.setHeadState h st cause).head k = (s.putHead h r).head k := by intro k; rw [e]; rfl
  exact ⟨by rw [hd]; simp [a], by rw [hd]; simp [b], fun n => by rw [hd]; simp [n]⟩

/-- A change of head state with what leaving ACTIVE in a REPAIR pass does: it writes one head record, the request queue,
the Repair List and the outstanding-repairs flag, and nothing else. -/
theorem State.changeHead_eq (h : Nat) (st : HeadState) (cause : Option HeadCause) :
    ∃ r q l o, s.changeHead h st cause =
        (((s.withRepairs l).withRun { s.run with outstanding := o }).putHead h r).withRing { s.ring with requests := q } ∧
      r.state = st ∧ r.cause = cause := by
  unfold State.changeHead
  split
  · obtain ⟨r, q, e, a, b, -⟩ := (s.unmarkEntries h).setHeadState_eq h st cause
    exact ⟨r, q, _, _, by rw [e]; unfold State.unmarkEntries; rw [State.setRepairs_eq]; rfl, a, b⟩
  · obtain ⟨r, q, e, a, b, -⟩ := s.setHeadState_eq h st cause
    exact ⟨r, q, s.repairs, s.run.outstanding, e, a, b⟩

/-- In a MAIN pass it writes one head record and the request queue alone. -/
theorem State.changeHead_main (h : Nat) (st : HeadState) (cause : Option HeadCause) (m : s.run.pass = .main) :
    s.changeHead h st cause = s.setHeadState h st cause := by
  simp [State.changeHead, m]

/-! ### SKIP and FAULT entries (R146, R152) -/

/-- Writing the Repair List, with the fields it changes not named. -/
theorem State.setRepairs_exists (l : List RepairEntry) :
    ∃ m o, s.setRepairs l = (s.withRepairs m).withRun { s.run with outstanding := o } := ⟨_, _, s.setRepairs_eq l⟩

/-- A SKIP entry changes the Repair List and the outstanding-repairs flag alone. -/
theorem State.skipEntry_eq (h : Nat) :
    ∃ l o, (s.skipEntry h).1 = (s.withRepairs l).withRun { s.run with outstanding := o } := by
  simp only [State.skipEntry]
  split
  · exact s.setRepairs_exists _
  · split
    · exact s.setRepairs_exists _
    · split
      · dsimp only; exact s.setRepairs_exists _
      · exact ⟨s.repairs, s.run.outstanding, rfl⟩

/-- A SKIP entry that finds no room leaves everything as it was. -/
theorem State.skipEntry_refused {h : Nat} (e : (s.skipEntry h).2 = false) : (s.skipEntry h).1 = s := by
  simp only [State.skipEntry] at e ⊢
  split at e
  · cases e
  · next a =>
    rw [if_neg a]
    split at e
    · cases e
    · next b =>
      rw [if_neg b]
      split at e
      · cases e
      · next c => rw [if_neg c]

/-- A FAULT entry changes the Repair List and the outstanding-repairs flag alone. -/
theorem State.faultEntry_eq (h : Nat) (cause : ThreadFault) (f : Nat) :
    ∃ l o, s.faultEntry h cause f = (s.withRepairs l).withRun { s.run with outstanding := o } := by
  simp only [State.faultEntry]
  split
  · exact s.setRepairs_exists _
  · split
    · exact s.setRepairs_exists _
    · exact s.setRepairs_exists _

/-! ### The fault action and the loss of a head (R135, R138) -/

/-- The fault action writes one head record, the request queue, the Repair List, the outstanding-repairs flag and the Event
Queue, and nothing else; the head is HELD_FAULT. -/
theorem State.faultAction_eq (h : Nat) (cause : ThreadFault) :
    ∃ r q l o v, s.faultAction h cause =
        ((((s.putHead h r).withRing { s.ring with requests := q }).withRepairs l).withRun
          { s.run with outstanding := o }).withEvents v ∧
      r.state = .heldFault ∧ r.cause = some (.thread cause) := by
  obtain ⟨r, q, e, a, b, -⟩ := s.setHeadState_eq h .heldFault (some (.thread cause))
  obtain ⟨l, o, f⟩ := ((s.putHead h r).withRing { s.ring with requests := q }).faultEntry_eq h cause (s.faultFrom h cause)
  obtain ⟨v, g⟩ := (((s.putHead h r).withRing { s.ring with requests := q }).faultEntry h cause (s.faultFrom h cause)).post_eq
    (faultEvent cause) h (indexParam (s.faultFrom h cause))
  refine ⟨r, q, l, o, v, ?_, a, b⟩
  simp only [State.faultAction]
  rw [e, g, f]
  rfl

/-- The loss of a head writes one head record, the request queue, the transaction in flight, the confirm set, the Repair
List, the outstanding-repairs flag and the Event Queue, and nothing else. -/
theorem State.loseHead_eq (h : Nat) (c : LossCause) :
    ∃ r ring l o x v, s.loseHead h c =
        (((((s.withRepairs l).withRun { s.run with outstanding := o }).putHead h r).withRing ring).withChange x).withEvents v ∧
      r.state = .lost ∧ r.cause = some (.loss c) ∧ (∀ y ∈ ring.requests, y.head ≠ h) ∧ ring.state = s.ring.state ∧
      ring.records = s.ring.records ∧
      x = s.change.map fun c => { c with confirm := c.confirm.filter fun k => decide (k ≠ h) } := by
  obtain ⟨r, q, l, o, e, a, b⟩ := s.changeHead_eq h .lost (some (.loss c))
  obtain ⟨v, g⟩ := ((s.changeHead h .lost (some (.loss c))).forgetHead h).post_eq .headLost h (lossParam c)
  let ring : HeadRing := { s.ring with
    requests := q.filter fun y => decide (y.head ≠ h)
    flight := s.ring.flight.map fun t => if t.request.head = h then { t with headLost := true } else t }
  refine ⟨r, ring, l, o, _, v, by unfold State.loseHead; rw [g, e]; rfl, a, b, ?_, rfl, rfl, rfl⟩
  intro y hy
  simpa using (List.mem_filter.mp (show y ∈ q.filter fun y => decide (y.head ≠ h) from hy)).2

end Sys2Proof.Machine
end

