-- ==== Sys2Proof/Laws/PerInstr.lean ====
section
/-! SUPPORT. A law of every command as syntax: the byte its frame begins with is a command byte of R167, permitted on the
port the command arrives on. One lemma for each constructor. -/

namespace Sys2Proof.Laws

/-- The command byte of a frame command is one of R167's, and R167 permits it on the port of the command. -/
def FramePermitted.Statement (i : Instr) : Prop :=
  ∀ content, frameContent i = some content →
    isCommand content.1.toNat = true ∧ permitted (framePort i) content.1.toNat = true

/-- The law of a command whose frame content is known. -/
theorem FramePermitted.of_content {i : Instr} {c : Byte} {b : List Byte} (h : frameContent i = some (c, b))
    (g : isCommand c.toNat = true ∧ permitted (framePort i) c.toNat = true) : FramePermitted.Statement i := by
  intro content e
  rw [h] at e
  cases e
  exact g

/-- The law of an event, which has no frame. -/
theorem FramePermitted.of_none {i : Instr} (h : frameContent i = none) : FramePermitted.Statement i := by
  intro content e
  rw [h] at e
  cases e

theorem FramePermitted.openDesign (slot len : Nat) : FramePermitted.Statement (.openDesign slot len) :=
  FramePermitted.of_content rfl ⟨rfl, rfl⟩

theorem FramePermitted.writeRecords (slot index : Nat) (records : List WireRecord) : FramePermitted.Statement (.writeRecords slot index records) :=
  FramePermitted.of_content rfl ⟨rfl, rfl⟩

theorem FramePermitted.readRecords (slot index count : Nat) : FramePermitted.Statement (.readRecords slot index count) :=
  FramePermitted.of_content rfl ⟨rfl, rfl⟩

theorem FramePermitted.portStoreAccessDone : FramePermitted.Statement .portStoreAccessDone :=
  FramePermitted.of_none rfl

theorem FramePermitted.requestPauseExpiry (r : Requester) : FramePermitted.Statement (.requestPauseExpiry r) :=
  FramePermitted.of_none rfl

theorem FramePermitted.setColours (slot first : Nat) (entries : List ColourEntry) : FramePermitted.Statement (.setColours slot first entries) :=
  FramePermitted.of_content rfl ⟨rfl, rfl⟩

theorem FramePermitted.readColours (slot first count : Nat) : FramePermitted.Statement (.readColours slot first count) :=
  FramePermitted.of_content rfl ⟨rfl, rfl⟩

theorem FramePermitted.readSlot (slot : Nat) : FramePermitted.Statement (.readSlot slot) :=
  FramePermitted.of_content rfl ⟨rfl, rfl⟩

theorem FramePermitted.closeDesign (slot : Nat) : FramePermitted.Statement (.closeDesign slot) :=
  FramePermitted.of_content rfl ⟨rfl, rfl⟩

theorem FramePermitted.closeScanReadDone : FramePermitted.Statement .closeScanReadDone :=
  FramePermitted.of_none rfl

theorem FramePermitted.delete (slot : Nat) : FramePermitted.Statement (.delete slot) :=
  FramePermitted.of_content rfl ⟨rfl, rfl⟩

theorem FramePermitted.keep (slot : Nat) (on : Bool) : FramePermitted.Statement (.keep slot on) :=
  FramePermitted.of_content rfl ⟨rfl, rfl⟩

theorem FramePermitted.clearFaultRecord : FramePermitted.Statement .clearFaultRecord :=
  FramePermitted.of_content rfl ⟨rfl, rfl⟩

theorem FramePermitted.arm (slot sx sy angle : Nat) (mirror : Bool) (ox oy nowX nowY : Nat) : FramePermitted.Statement (.arm slot sx sy angle mirror ox oy nowX nowY) :=
  FramePermitted.of_content rfl ⟨rfl, rfl⟩

theorem FramePermitted.traceReadDone : FramePermitted.Statement .traceReadDone :=
  FramePermitted.of_none rfl

theorem FramePermitted.start : FramePermitted.Statement .start :=
  FramePermitted.of_content rfl ⟨rfl, rfl⟩

theorem FramePermitted.stop (port : Port) : FramePermitted.Statement (.stop port) :=
  FramePermitted.of_content rfl (by cases port <;> decide)

theorem FramePermitted.disarm : FramePermitted.Statement .disarm :=
  FramePermitted.of_content rfl ⟨rfl, rfl⟩

theorem FramePermitted.setSpeed (value : Nat) : FramePermitted.Statement (.setSpeed value) :=
  FramePermitted.of_content rfl ⟨rfl, rfl⟩

theorem FramePermitted.readRun : FramePermitted.Statement .readRun :=
  FramePermitted.of_content rfl ⟨rfl, rfl⟩

theorem FramePermitted.prepareTurn : FramePermitted.Statement .prepareTurn :=
  FramePermitted.of_none rfl

theorem FramePermitted.prepareReadDone : FramePermitted.Statement .prepareReadDone :=
  FramePermitted.of_none rfl

theorem FramePermitted.fetchMoves (max : Nat) : FramePermitted.Statement (.fetchMoves max) :=
  FramePermitted.of_content rfl ⟨rfl, rfl⟩

theorem FramePermitted.done (seq : Nat) : FramePermitted.Statement (.done seq) :=
  FramePermitted.of_content rfl ⟨rfl, rfl⟩

theorem FramePermitted.stopped (form seq : Nat) : FramePermitted.Statement (.stopped form seq) :=
  FramePermitted.of_content rfl ⟨rfl, rfl⟩

theorem FramePermitted.walk (mode n : Nat) : FramePermitted.Statement (.walk mode n) :=
  FramePermitted.of_content rfl ⟨rfl, rfl⟩

theorem FramePermitted.walkReadDone : FramePermitted.Statement .walkReadDone :=
  FramePermitted.of_none rfl

theorem FramePermitted.repair : FramePermitted.Statement .repair :=
  FramePermitted.of_content rfl ⟨rfl, rfl⟩

theorem FramePermitted.readRepairs (first count : Nat) : FramePermitted.Statement (.readRepairs first count) :=
  FramePermitted.of_content rfl ⟨rfl, rfl⟩

theorem FramePermitted.broadcastSent : FramePermitted.Statement .broadcastSent :=
  FramePermitted.of_none rfl

theorem FramePermitted.changeDeadline : FramePermitted.Statement .changeDeadline :=
  FramePermitted.of_none rfl

theorem FramePermitted.setInhibit (head : Nat) (needles : BitVec 16) : FramePermitted.Statement (.setInhibit head needles) :=
  FramePermitted.of_content rfl ⟨rfl, rfl⟩

theorem FramePermitted.ringTransactionStart : FramePermitted.Statement .ringTransactionStart :=
  FramePermitted.of_none rfl

theorem FramePermitted.ringAnswer (ringEnd : RingEnd) (frame : RingWord) : FramePermitted.Statement (.ringAnswer ringEnd frame) :=
  FramePermitted.of_none rfl

theorem FramePermitted.ringTimeout : FramePermitted.Statement .ringTimeout :=
  FramePermitted.of_none rfl

theorem FramePermitted.ringStart : FramePermitted.Statement .ringStart :=
  FramePermitted.of_content rfl ⟨rfl, rfl⟩

theorem FramePermitted.headOff (head : Nat) : FramePermitted.Statement (.headOff head) :=
  FramePermitted.of_content rfl ⟨rfl, rfl⟩

theorem FramePermitted.headOn (head : Nat) : FramePermitted.Statement (.headOn head) :=
  FramePermitted.of_content rfl ⟨rfl, rfl⟩

theorem FramePermitted.readHeads (first count : Nat) : FramePermitted.Statement (.readHeads first count) :=
  FramePermitted.of_content rfl ⟨rfl, rfl⟩

theorem FramePermitted.readEvents (n : Nat) : FramePermitted.Statement (.readEvents n) :=
  FramePermitted.of_content rfl ⟨rfl, rfl⟩

theorem FramePermitted.setClass (kind : Nat) (log attend : Bool) : FramePermitted.Statement (.setClass kind log attend) :=
  FramePermitted.of_content rfl ⟨rfl, rfl⟩

theorem FramePermitted.setTime (value unit : Nat) : FramePermitted.Statement (.setTime value unit) :=
  FramePermitted.of_content rfl ⟨rfl, rfl⟩

theorem FramePermitted.timeTagTick : FramePermitted.Statement .timeTagTick :=
  FramePermitted.of_none rfl

theorem FramePermitted.setConstants (record : ConstantsFrame) : FramePermitted.Statement (.setConstants record) :=
  FramePermitted.of_content rfl ⟨rfl, rfl⟩

theorem FramePermitted.readConstants : FramePermitted.Statement .readConstants :=
  FramePermitted.of_content rfl ⟨rfl, rfl⟩

theorem FramePermitted.readStatus (port : Port) : FramePermitted.Statement (.readStatus port) :=
  FramePermitted.of_content rfl (by cases port <;> decide)

theorem FramePermitted.readPortErrors (port : Port) : FramePermitted.Statement (.readPortErrors port) :=
  FramePermitted.of_content rfl (by cases port <;> decide)

theorem FramePermitted.nop (port : Port) : FramePermitted.Statement (.nop port) :=
  FramePermitted.of_content rfl (by cases port <;> decide)

theorem FramePermitted.identify (port : Port) : FramePermitted.Statement (.identify port) :=
  FramePermitted.of_content rfl (by cases port <;> decide)

theorem FramePermitted.frameError (port : Port) (error : FrameError) : FramePermitted.Statement (.frameError port error) :=
  FramePermitted.of_none rfl

theorem FramePermitted.reset : FramePermitted.Statement .reset :=
  FramePermitted.of_none rfl

theorem FramePermitted.frameAcceptReady : FramePermitted.Statement .frameAcceptReady :=
  FramePermitted.of_none rfl

theorem FramePermitted.storeBitChange (chunk : Nat) (bits : List Nat) : FramePermitted.Statement (.storeBitChange chunk bits) :=
  FramePermitted.of_none rfl

theorem FramePermitted.chipSelectAssert (port : Port) (start : FrameStart) :
    FramePermitted.Statement (.chipSelectAssert port start) :=
  FramePermitted.of_none rfl

theorem FramePermitted.resetRelease : FramePermitted.Statement .resetRelease :=
  FramePermitted.of_none rfl

end Sys2Proof.Laws
end

