-- ==== Sys2Proof/Laws/Runs.lean ====
section
/-! SUPPORT. What each shared operation over changes, tokens, halts and walks can do, said once. -/

namespace Sys2Proof.Machine

open Sys2Proof

variable (s : State)

/-! ### Colour changes (chapter 7) -/

/-- The state with the heads, the request queue, the Repair List and the outstanding-repairs flag blanked out. -/
def State.blankHeads (s : State) : State :=
  { s with heads := [], ring := { s.ring with requests := [] }, repairs := [], run := { s.run with outstanding := false } }

/-- Nothing changed but the heads, the request queue, the Repair List and the outstanding-repairs flag. -/
def State.OnlyHeads (s t : State) : Prop := t.blankHeads = s.blankHeads

theorem State.OnlyHeads.refl : s.OnlyHeads s := rfl

variable {s} in
theorem State.OnlyHeads.trans {t u : State} (h : s.OnlyHeads t) (g : t.OnlyHeads u) : s.OnlyHeads u := Eq.trans g h

theorem State.OnlyHeads.setHeadState (h : Nat) (st : HeadState) (cause : Option HeadCause) :
    s.OnlyHeads (s.setHeadState h st cause) := by
  obtain ⟨r, q, e, -⟩ := s.setHeadState_eq h st cause
  rw [e]; rfl

theorem State.OnlyHeads.changeHead (h : Nat) (st : HeadState) (cause : Option HeadCause) :
    s.OnlyHeads (s.changeHead h st cause) := by
  obtain ⟨r, q, l, o, e, -⟩ := s.changeHead_eq h st cause
  rw [e]
  clear e
  cases s
  rfl

theorem State.OnlyHeads.setRepairs (l : List RepairEntry) : s.OnlyHeads (s.setRepairs l) := by
  rw [State.setRepairs_eq]; rfl

theorem State.OnlyHeads.setJoin (h : Nat) (j : Option Nat) : s.OnlyHeads (s.setJoin h j) := rfl

theorem State.OnlyHeads.skipEntry (h : Nat) : s.OnlyHeads (s.skipEntry h).1 := by
  obtain ⟨l, o, e⟩ := s.skipEntry_eq h
  rw [e]; rfl

theorem State.OnlyHeads.holdAtChange (h : Nat) : s.OnlyHeads (s.holdAtChange h) := by
  unfold State.holdAtChange
  split
  · exact .setHeadState s h _ _
  · exact (State.OnlyHeads.setHeadState s h _ _).trans (.setRepairs _ _)

/-- The placing of one head in a repair pass touches the heads, the request queue, the Repair List and the
outstanding-repairs flag alone. -/
theorem State.OnlyHeads.placeHead (h : Nat) : s.OnlyHeads (s.placeHead h) := by
  have enter : ∀ st, s.OnlyHeads (s.enterHead h st) := by
    intro st
    unfold State.enterHead
    split
    · exact .refl s
    · exact .changeHead s h st none
  simp only [State.placeHead]
  split
  · split
    · exact (enter _).trans (.setJoin _ h _)
    · exact ((enter _).trans (.setJoin _ h _)).trans (.setRepairs _ _)
  · split
    · exact (enter _).trans (.setJoin _ h _)
    · exact (enter _).trans (.setJoin _ h _)

/-- A head returned to work: the same fields alone. -/
theorem State.OnlyHeads.returnHead (h : Nat) : s.OnlyHeads (s.returnHead h) := by
  unfold State.returnHead
  split
  · exact .changeHead s h _ _
  · exact (State.OnlyHeads.setRepairs s _).trans (.placeHead _ h)

theorem State.OnlyHeads.checkHead (h : Nat) : s.OnlyHeads (s.checkHead h).1 := by
  unfold State.checkHead
  split
  · have := (State.OnlyHeads.holdAtChange s h).trans (.skipEntry _ h)
    split
    next e => rw [e] at this; exact this
  · have := State.OnlyHeads.skipEntry s h
    split
    next e => rw [e] at this; exact this
  · exact .returnHead s h
  · exact .refl s

/-- The inhibit check touches the heads, the request queue, the Repair List and the outstanding-repairs flag alone. -/
theorem State.OnlyHeads.inhibitCheck (hs : List Nat) : s.OnlyHeads (s.inhibitCheck hs).1 := by
  induction hs generalizing s with
  | nil => exact .refl s
  | cons h rest ih =>
    have g := State.OnlyHeads.checkHead s h
    unfold State.inhibitCheck
    split
    next t full e =>
      rw [e] at g
      have k := ih t
      split
      next u later f => rw [f] at k; exact g.trans k

/-- The resume decision changes the run state, the stop reason, the Sequencer, the arbiter and the Event Queue, and leaves
the run RUNNING or PAUSED. -/
theorem State.resumeDecision_eq (action : ChangeAction) (full : Option Nat) :
    ∃ st r q a v, s.resumeDecision action full =
        (((s.withRun { s.run with state := st, stopReason := r }).withSeq q).withArbiter a).withEvents v ∧
      (st = .running ∨ st = .paused) := by
  have paused : ∃ b a, s.setRunState .paused =
      ((s.withRun { s.run with state := .paused }).withSeq { s.seq with buffer := b }).withArbiter a := s.setRunState_eq _
  have running : ∃ b a, s.setRunState .running =
      ((s.withRun { s.run with state := .running }).withSeq { s.seq with buffer := b }).withArbiter a := s.setRunState_eq _
  obtain ⟨b, a, p⟩ := paused
  obtain ⟨b2, a2, r⟩ := running
  have stop : ∀ (reason : StopReason) (k : EventKind) (head : Nat) (param : BitVec 32), ∃ st x q y v,
      ((s.setRunState .paused).setStopReason reason).post k head param =
        (((s.withRun { s.run with state := st, stopReason := x }).withSeq q).withArbiter y).withEvents v ∧
      (st = .running ∨ st = .paused) := by
    intro reason k head param
    obtain ⟨v, e⟩ := ((s.setRunState .paused).setStopReason reason).post_eq k head param
    exact ⟨.paused, reason, _, a, v, by rw [e, p]; rfl, .inr rfl⟩
  have goes : ∃ st x q y v, (s.setRunState .running).withSeq { s.seq with ramp := s.constants.ramp } =
        (((s.withRun { s.run with state := st, stopReason := x }).withSeq q).withArbiter y).withEvents v ∧
      (st = .running ∨ st = .paused) :=
    ⟨.running, s.run.stopReason, { s.seq with ramp := s.constants.ramp }, a2, s.events, by rw [r]; rfl, .inl rfl⟩
  unfold State.resumeDecision
  split
  · exact stop _ _ _ _
  · split
    · exact stop _ _ _ _
    · split
      · exact goes
      · exact goes
      · exact stop _ _ _ _
      · obtain ⟨v, e⟩ := (s.setRunState .paused).post_eq .runStopped 0
          (BitVec.ofNat 32 (paramField 4 0 (s.setRunState .paused).run.stopReason.code))
        exact ⟨.paused, s.run.stopReason, _, a, v, by unfold State.postStopped; rw [e, p], .inr rfl⟩

/-! ### Tokens (chapter 5) -/

/-- A token is placed at the tail of the prepared region under the next sequence number; nothing else changes. -/
theorem State.placeToken_eq (t : Token) : s.placeToken t = { s with queue := { s.queue with
    prepared := s.queue.prepared ++ [{ t with seq := s.queue.nextSeq }],
    nextSeq := (s.queue.nextSeq + 1) % 65536 } } := rfl

/-- A STEP or TRAVEL token changes the Move Queue, the prepared frame position and, for a STEP, the ramp count alone. -/
theorem State.placeMove_eq (kind : TokenKind) (slow : Bool) (goal : Point) (last : Bool) (design : Point) (role : TokenRole) :
    ∃ q, s.placeMove kind slow goal last design role = (s.withQueue q).withSeq
        { s.seq with frame := goal, ramp := if kind = .step then s.seq.ramp - 1 else s.seq.ramp } ∧
      q.issued = s.queue.issued ∧ q.lastDone = s.queue.lastDone ∧ q.starved = s.queue.starved :=
  ⟨_, rfl, rfl, rfl, rfl⟩

/-- A HALT token changes the Move Queue and the Sequencer alone. -/
theorem State.placeHalt_eq (reason : HaltReason) :
    ∃ q, s.placeHalt reason = (s.withQueue q).withSeq { s.seq with
      haltFlag := true, halt := none, cursor := if reason = .join then s.seq.cursor else s.seq.cursor + 1 } := by
  unfold State.placeHalt
  cases reason <;> exact ⟨_, rfl⟩

/-- The issue of tokens changes the Move Queue alone, and neither makes nor loses a token. -/
theorem State.issue_eq (n : Nat) : s.issue n = s.withQueue (s.issue n).queue ∧
    (s.issue n).queue.issued ++ (s.issue n).queue.prepared = s.queue.issued ++ s.queue.prepared := by
  refine ⟨rfl, ?_⟩
  simp [State.issue, List.append_assoc]

/-! ### Rollback (R89) -/

/-- The rollback empties the queue and writes the Sequencer from the executed point; the ramp count and all else stand. -/
theorem State.rollback_eq : ∃ a f, s.rollback =
    ((s.withQueue { s.queue with issued := [], prepared := [] }).withSeq
      { cursor := s.run.cursor, design := s.run.design, frame := s.run.frame, ramp := s.seq.ramp, split := none,
        halt := none, buffer := none, haltFlag := f,
        approach := s.seq.approach || (s.queue.issued ++ s.queue.prepared).any fun t => decide (t.role = .approach) }).withArbiter a := by
  simp only [State.rollback]
  obtain ⟨a, h⟩ := State.dropRead_eq (((s.withQueue { s.queue with issued := [], prepared := [] }).withSeq
      { cursor := s.run.cursor, design := s.run.design, frame := s.run.frame, ramp := s.seq.ramp, split := none,
        halt := none, buffer := none,
        haltFlag := s.seq.haltFlag && !((s.queue.issued ++ s.queue.prepared).any fun t => decide (t.kind = .halt)),
        approach := s.seq.approach || (s.queue.issued ++ s.queue.prepared).any fun t => decide (t.role = .approach) })) .sequencer
  exact ⟨a, _, h⟩

/-! ### Walks and the slot released (chapters 4 and 6) -/

/-- What a walk hands over: the run record's point and state, the Sequencer, and no walk. -/
theorem State.takeWalk_eq (w : WalkRecord) : s.takeWalk w =
    ((s.withWalk none).withRun { s.run with
      cursor := w.cursor, design := w.design, colourBlock := w.colourBlock,
      state := if w.cursor = s.designLength then .finished else .paused }).withSeq { s.seq with
        cursor := w.cursor, design := w.design, frame := s.run.frame, approach := true, split := none, halt := none,
        haltFlag := false, buffer := none } := rfl

/-- The release of the armed slot clears its armed flag and leaves no slot armed; nothing else changes. -/
theorem State.releaseSlot_eq : ∃ q, s.releaseSlot = (s.withSlots q).withRun { s.run with armedSlot := none } := by
  unfold State.releaseSlot
  cases s.run.armedSlot with
  | none => exact ⟨s.slots, rfl⟩
  | some k => exact ⟨_, rfl⟩

end Sys2Proof.Machine
end

