-- ==== Sys2Proof/Laws/Store.lean ====
section
/-! SUPPORT. What each operation over the Design Store and the free block pool can do, said once. -/

namespace Sys2Proof.Machine

open Sys2Proof

variable (s : State)

@[simp] theorem State.chunk_withEvents (v : List EventEntry) (n : Nat) : (s.withEvents v).chunk n = s.chunk n := rfl

/-- A chunk read changes the store and the Event Queue alone: no chunk, or the one read, which is written back corrected
(R6). -/
theorem State.readChunk_eq (n : Nat) :
    ∃ st v, (s.readChunk n).1 = (s.withStore st).withEvents v ∧
      ∀ m, (s.readChunk n).1.chunk m = s.chunk m ∨
        m = n ∧ (s.chunk n).outcome = .corrected ∧ (s.readChunk n).1.chunk m = (s.chunk n).corrected := by
  have same : ∃ st v, s = (s.withStore st).withEvents v := ⟨s.store, s.events, rfl⟩
  obtain ⟨st, v, e⟩ := same
  simp only [State.readChunk]
  split
  · split
    · exact ⟨st, v, e, fun m => .inl rfl⟩
    · next outcome =>
      obtain ⟨w, h⟩ := (s.putChunk n (s.chunk n).corrected).post_eq .memoryCorrected 0 (chunkParam n)
      refine ⟨_, w, h, fun m => ?_⟩
      simp only [h, State.chunk_withEvents, State.chunk_putChunk]
      by_cases m_n : m = n
      · exact .inr ⟨m_n, outcome, by simp [m_n]⟩
      · exact .inl (by simp [m_n])
    · exact ⟨st, v, e, fun m => .inl rfl⟩
  · exact ⟨st, v, e, fun m => .inl rfl⟩

/-- A chunk no bit of which has changed is read without any effect. -/
theorem State.readChunk_unchanged (n : Nat) (h : (s.chunk n).changed = []) :
    (s.readChunk n).1 = s ∧ ∃ rs, (s.readChunk n).2 = .records rs false := by
  have o : (s.chunk n).outcome = .clean := by simp [Chunk.outcome, h]
  simp only [State.readChunk]
  split
  · simp only [o]; exact ⟨trivial, _, rfl⟩
  · exact ⟨rfl, _, rfl⟩

/-- The reads of a request change the store and the Event Queue alone. -/
theorem State.readSpans_eq (spans : List Span) : ∃ st v, (s.readSpans spans).1 = (s.withStore st).withEvents v := by
  induction spans generalizing s with
  | nil => exact ⟨s.store, s.events, rfl⟩
  | cons sp rest ih =>
    obtain ⟨st, v, h, -⟩ := s.readChunk_eq sp.chunk
    unfold State.readSpans
    split
    · next t e => rw [e] at h; exact ⟨st, v, h⟩
    · next t rs c e =>
      rw [e] at h
      dsimp only at h
      obtain ⟨st2, v2, g⟩ := ih t
      have : ∃ a b, (t.readSpans rest).1 = (s.withStore a).withEvents b := ⟨st2, v2, by rw [g, h]; rfl⟩
      split <;> (next f => rw [f] at this; exact this)

/-- The second phase of a write request changes the store alone. -/
theorem State.writeSpans_eq (index : Nat) (rs : List StitchRecord) (spans : List Span) :
    ∃ st, s.writeSpans index rs spans = s.withStore st := by
  induction spans generalizing s with
  | nil => exact ⟨s.store, rfl⟩
  | cons sp rest ih =>
    obtain ⟨st, h⟩ := ih (s.putChunk sp.chunk ((s.chunk sp.chunk).write (sp.cells index rs)))
    exact ⟨st, h⟩

/-- A write request changes the store and the Event Queue alone. -/
theorem State.writeRequest_eq (index : Nat) (rs : List StitchRecord) (spans : List Span) :
    ∃ st v, (s.writeRequest index rs spans).1 = (s.withStore st).withEvents v := by
  obtain ⟨st, v, h⟩ := s.readSpans_eq (s.firstPhaseSpans spans)
  unfold State.writeRequest
  split
  · next e => rw [e] at h; exact ⟨st, v, h⟩
  · next t x y e =>
    rw [e] at h
    dsimp only at h
    obtain ⟨st2, g⟩ := t.writeSpans_eq index rs spans
    exact ⟨st2, v, by show t.writeSpans index rs spans = _; rw [g, h]; rfl⟩

/-- Taking blocks changes the store and the pool alone, and gives the lowest free ones. -/
theorem State.allocate_eq (len : Nat) : ∃ st,
    s.allocate len = ((s.withStore st).withPool (s.pool.drop (blocksFor len)), s.pool.take (blocksFor len)) := ⟨_, rfl⟩

theorem poolInsert_perm (b : Nat) (l : List Nat) : (poolInsert b l).Perm (b :: l) := by
  induction l with
  | nil => exact .refl _
  | cons a rest ih =>
    unfold poolInsert
    split
    · exact .refl _
    · exact (ih.cons a).trans (.swap b a rest)

/-- Blocks returned stand in the pool beside what stood there; nothing else changes. -/
theorem State.release_eq (blocks : List Nat) : ∃ p, s.release blocks = s.withPool p ∧ p.Perm (blocks ++ s.pool) := by
  refine ⟨_, rfl, ?_⟩
  generalize s.pool = p
  induction blocks generalizing p with
  | nil => exact .refl _
  | cons b rest ih =>
    refine (ih (poolInsert b p)).trans ?_
    refine ((poolInsert_perm b p).append_left rest).trans ?_
    exact List.perm_middle

end Sys2Proof.Machine
end

