-- ==== Sys2Proof/Tests/Slice0.lean ====
section
/-! SUPPORT. Tests: ill-formed commands, frames and checks written out from the spec, the worked cases of chapters 1 to 11,
and for every statement with hypotheses a concrete state and operands that meet them, with what the spec says follows. -/

namespace Sys2Proof.Tests

-- One test after another: each evaluates in the kernel, and a thread for each of them would need the memory of all.
set_option Elab.async false

open Sys2Proof Sys2Proof.Machine

/-! ### Helpers -/

/-- The state after a command. -/
def after (c : Instr) (s : State) : State := match exec c s with | .next t => t | _ => s

/-- The code and payload of the reply held on a port. -/
def answer (port : Port) (s : State) : Option (ReplyCode × List Byte) :=
  match (s.port port).reply with | .held r => some (r.code, r.payload) | _ => none

/-- The kinds of the events held. -/
def kinds (s : State) : List EventKind := s.events.map (·.kind)

/-- A command is refused with a code and an empty payload, and changes nothing but its port. -/
def refusedWith (c : Instr) (s : State) (port : Port) (code : ReplyCode) : Bool :=
  decide (answer port (after c s) = some (code, [])) &&
    decide (after c s = (s.loseReply port).putPort port ((after c s).port port))

/-- A record. -/
def rec4 (kind : RecordKind) (dx dy : Int) : StitchRecord := ⟨kind, false, dx, dy⟩

/-- A COMPLETE chunk of four records. -/
def four (a b c d : StitchRecord) : Chunk := ⟨.written a, .written b, .written c, .written d, []⟩

/-- The part taking frames, as after reset otherwise. -/
def base : State := { State.reset with power := .ready }

/-- The slot of the worked loading sequence (2.11): ten records in block 3, closed. -/
def workedSlot : SlotRecord :=
  { SlotRecord.reset with
    state := .ready, length := 10, blockMap := [3], colourCount := 2, stitchCount := 5, extents := ⟨0, 350, -80, 220⟩,
    colours := [(0, some ⟨3, .auto⟩), (1, some ⟨7, .stop⟩), (2, some ⟨3, .auto⟩)] }

/-- The chunks of the worked loading sequence (2.11). -/
def workedStore : Table Chunk :=
  [(384, four (rec4 .jump 300 200) (rec4 .stitch 25 0) (rec4 .stitch 25 (-10)) (rec4 .colour 0 0)),
   (385, four (rec4 .stitch (-40) 15) (rec4 .stitch (-40) 15) (rec4 .trim 0 0) (rec4 .colour 0 0)),
   (386, ⟨.written (rec4 .stitch 10 (-300)), .written (rec4 .endRecord 0 0), .padding, .padding, []⟩)]

/-- The worked design in slot 4, a small pool, four ACTIVE heads on a FULL ring (4.10). -/
def worked : State :=
  { base with
    slots := [(4, workedSlot)], store := workedStore, pool := [0, 1, 2, 4],
    constants := { Constants.reset with nHeads := 4 },
    heads := [1, 2, 3, 4].map fun h => (h, { HeadRecord.reset with state := .active }),
    ring := { HeadRing.reset with
      state := .full, records := [1, 2, 3, 4].map fun h => (h, { RingRecord.reset with path := some .a }) } }

/-- The worked design ARMED as in 4.10. -/
def armedState : State :=
  { worked with
    slots := [(4, { workedSlot with armed := true })],
    run := { RunRecord.reset with
      state := .armed, armedSlot := some 4, transform := transformOf 1024 1024 0 false 1000 500, frame := ⟨600, 400⟩ },
    seq := armedSequencer ⟨600, 400⟩ }

/-- The armed design in a run state, on needle 3. -/
def inState (st : RunState) : State := { armedState with run := { armedState.run with state := st, needle := 3 } }

/-- An access of an internal requester that holds the path. -/
def serving (r : Requester) (x : StoreRead) (s : State) : State :=
  { s with arbiter := { s.arbiter.putRequest r (.served x true) with holder := some (.internal r) } }

/-- A head answer frame: head, function, needle, and the seven flags from THREAD_MOVED down to BOARD_FAULT (R120). -/
def answerFrame (head function needle flags : Nat) : RingWord :=
  let body : BitVec 25 := BitVec.ofNat 25 (2 ^ 24 + head * 2 ^ 19 + function * 2 ^ 16 + needle * 2 ^ 12 + flags * 2 ^ 5)
  body ++ crc7 body

/-- A POLL of a head in flight on end A. -/
def polling (h : Nat) (s : State) : State :=
  { s with ring := { s.ring with flight := some (transactionOf ⟨.poll, h, 0⟩ .a false true s.selectionSent false) } }

/-- A STEP token of record `i` with a checkpoint. -/
def stepToken (n i : Nat) : Token :=
  { seq := n, kind := .step, reason := none, mx := 40, my := 0, ceiling := some 600, index := i, frameAfter := ⟨5440, 5200⟩,
    lastOfRecord := true, designAfter := ⟨110, 50⟩, role := .record }

/-! ### Ill-formed commands -/

theorem test_wf_slot_byte : (Instr.readSlot 256).wellFormed = false := by decide
theorem test_wf_length_three_bytes : (Instr.openDesign 0 16777216).wellFormed = false := by decide
theorem test_wf_index_three_bytes : (Instr.readRecords 0 16777216 1).wellFormed = false := by decide
theorem test_wf_kind_code : (Instr.writeRecords 0 0 [⟨16, 0, 0, 0⟩]).wellFormed = false := by decide
theorem test_wf_record_flags : (Instr.writeRecords 0 0 [⟨1, 16, 0, 0⟩]).wellFormed = false := by decide
theorem test_wf_delta : (Instr.writeRecords 0 0 [⟨1, 0, 32768, 0⟩]).wellFormed = false := by decide
theorem test_wf_delta_low : (Instr.writeRecords 0 0 [⟨1, 0, 0, -32769⟩]).wellFormed = false := by decide
theorem test_wf_count_byte : (Instr.setColours 0 0 (List.replicate 256 ⟨1, .auto⟩)).wellFormed = false := by decide +kernel
theorem test_wf_colour_needle : (Instr.setColours 0 0 [⟨16, .auto⟩]).wellFormed = false := by decide
theorem test_wf_scale_two_bytes : (Instr.arm 0 65536 1024 0 false 0 0 0 0).wellFormed = false := by decide
theorem test_wf_speed : (Instr.setSpeed 65536).wellFormed = false := by decide
theorem test_wf_sequence : (Instr.done 65536).wellFormed = false := by decide
theorem test_wf_stopped_form : (Instr.stopped 256 0).wellFormed = false := by decide
theorem test_wf_walk_number : (Instr.walk 0 16777216).wellFormed = false := by decide
theorem test_wf_head : (Instr.headOn 256).wellFormed = false := by decide
theorem test_wf_class_kind : (Instr.setClass 256 true true).wellFormed = false := by decide
theorem test_wf_time_unit : (Instr.setTime 0 256).wellFormed = false := by decide
theorem test_wf_band_count : (Instr.setConstants default).wellFormed = false := by decide
theorem test_wf_store_chunk : (Instr.storeBitChange 65536 []).wellFormed = false := by decide
theorem test_wf_store_bit : (Instr.storeBitChange 0 [266]).wellFormed = false := by decide

/-! ### Frames and checks written out from the spec (R120, R163, R167, R169, R170) -/

/-- 12.1: the CRC-8 of the byte 00h is 42h, and NOP is the frame 63h A6h. -/
theorem test_crc8_of_zero_and_nop : crc8 [0x00] = 0x42 ∧ encodeFrame (.nop .p) = some [0x63, 0xA6] := by decide +kernel

/-- R120: the check over 25 zero bits is 0. -/
theorem test_crc7_of_zero : crc7 0 = 0 := by decide +kernel

/-- R167: OPEN_DESIGN of slot 4 and L = 10 is 10h 04h 00h 00h 0Ah and its CRC. -/
theorem test_decode_open :
    decodeFrame .p [0x10, 0x04, 0x00, 0x00, 0x0A, crc8 [0x10, 0x04, 0x00, 0x00, 0x0A]] = some (.openDesign 4 10) := by
  decide +kernel

/-- R167, R169: a SLOW STITCH (−40, +15) for record 5 of slot 4; byte 1 of the record is ignored. -/
theorem test_decode_write :
    decodeFrame .p ([0x11, 4, 0, 0, 5, 1, 0x11, 0xEE, 0xFF, 0xD8, 0x00, 0x0F] ++
      [crc8 [0x11, 4, 0, 0, 5, 1, 0x11, 0xEE, 0xFF, 0xD8, 0x00, 0x0F]]) =
      some (.writeRecords 4 5 [⟨1, 1, -40, 15⟩]) := by decide +kernel

/-- R167: SET_COLOURS with needle 7 STOP is 87h; STOPPED carries its form; a DONE is not permitted on port P. -/
theorem test_decode_others :
    decodeFrame .p [0x13, 4, 1, 1, 0x87, crc8 [0x13, 4, 1, 1, 0x87]] = some (.setColours 4 1 [⟨7, .stop⟩]) ∧
    decodeFrame .m [0x72, 1, 0, 0, crc8 [0x72, 1, 0, 0]] = some (.stopped 1 0) ∧
    decodeFrame .p [0x71, 1, 2, crc8 [0x71, 1, 2]] = some (.frameError .p .notPermitted) ∧
    decodeFrame .m [0x71, 1, 2, crc8 [0x71, 1, 2]] = some (.done 258) := by decide +kernel

/-- R166: the errors in their order; fill of 00h is no error. -/
theorem test_frame_errors :
    decodeFrame .p [] = none ∧ decodeFrame .p [0x00] = some (.frameError .p .unknown) ∧
    decodeFrame .p [0x63] = some (.frameError .p .short) ∧ decodeFrame .p [0x63, 0xA7] = some (.frameError .p .check) ∧
    decodeFrame .p [0x63, 0xA6, 0, 1] = some (.frameError .p .long) ∧
    decodeFrame .p [0x63, 0xA6, 0, 0] = some (.nop .p) := by decide +kernel

/-- R119, R170: SELECT_NEEDLE 9 to all heads has head id 31, function 2 and data 9. -/
theorem test_request_frame : (requestFrame ⟨.selectNeedle, 31, 9⟩).extractLsb' 7 25 = 0x0FA0009#25 := by decide +kernel

/-- The table gives no row any bits. -/
theorem test_table_word : decodeTableWord 0 0 = none ∧ base.withFetchWord 0 0 = base := by decide +kernel

/-! ### The frame arithmetic: cases A to E of 3.9 -/

theorem test_case_a : target (transformOf 1229 1229 30 false 8000 6000) ⟨250, -120⟩ = ⟨9327, 6101⟩ ∧
    pieceCount 480 ⟨1327, 101⟩ = 3 ∧ subTarget ⟨8000, 6000⟩ ⟨9327, 6101⟩ 3 1 = ⟨8442, 6034⟩ ∧
    subTarget ⟨8000, 6000⟩ ⟨9327, 6101⟩ 3 2 = ⟨8885, 6067⟩ ∧ ceilingOf Constants.reset 850 0 443 false = 700 := by
  decide +kernel

theorem test_case_b : ceilingOf Constants.reset 850 0 212 true = 500 := by decide +kernel

theorem test_case_c : target (transformOf 1024 900 200 true 20000 12000) ⟨-37, 58⟩ = ⟨19931, 11758⟩ := by decide +kernel

theorem test_case_d : pieceCount 240 ⟨-725, 218⟩ = 4 ∧ subTarget ⟨0, 0⟩ ⟨-725, 218⟩ 4 1 = ⟨-181, 55⟩ ∧
    subTarget ⟨0, 0⟩ ⟨-725, 218⟩ 4 2 = ⟨-362, 109⟩ ∧ subTarget ⟨0, 0⟩ ⟨-725, 218⟩ 4 3 = ⟨-544, 164⟩ ∧
    subTarget ⟨0, 0⟩ ⟨-725, 218⟩ 4 4 = ⟨-725, 218⟩ ∧ ceilingOf Constants.reset 1200 2 182 false = 400 := by
  decide +kernel

theorem test_case_e : pieceCount 480 ⟨960, -300⟩ = 2 ∧ subTarget ⟨0, 0⟩ ⟨960, -300⟩ 2 1 = ⟨480, -150⟩ := by decide +kernel

/-- The hypotheses of `CeilingIsExact` and of `SplitPiecesReachTarget`, at the shortest and longest ramp. -/
theorem test_witness_CeilingIsExact : Constants.reset.inRange ∧ 100 ≤ 600 ∧
    ceilingOf Constants.reset 1200 0 80 false = 1200 ∧ ceilingOf Constants.reset 1200 0 81 false = 1100 ∧
    ceilingOf Constants.reset 1200 0 65535 false = 400 ∧ ceilingOf Constants.reset 855 0 80 true = 600 ∧
    ceilingOf Constants.reset 1200 1 80 false = 400 ∧ ceilingOf Constants.reset 600 0 65535 true = 200 ∧ bandSpeed [(10, 200)] 99 = 200 := by
  refine ⟨?_, by decide, ?_⟩
  · unfold Constants.inRange; decide +kernel
  · decide +kernel

theorem test_witness_SplitPiecesReachTarget : 1 ≤ 480 ∧ moveLength ⟨480, 3⟩ ≤ 480 ∧ pieceCount 480 ⟨480, 3⟩ = 1 ∧
    480 < moveLength ⟨481, 3⟩ ∧ pieceCount 480 ⟨481, 3⟩ = 2 := by decide +kernel

/-! ### The queue, reset, the chip-select -/

theorem test_witness_StepRunsFrontOrIdles :
    let s : State := { base with pending := [.setSpeed 777, .nop .p] }
    s.pending = .setSpeed 777 :: [.nop .p] ∧ base.pending = [] ∧
    (match step s with | .next t => decide (t.run.speed = 770 ∧ t.pending = [.nop .p]) | _ => false) = true ∧
    (match step base with | .next t => decide (t = base) | _ => false) = true := by decide +kernel

theorem test_witness_FrameStartShiftsOutReply_untaken :
    (frameContent (.setSpeed 777)).isSome = true ∧ State.reset.power ≠ .ready ∧ after (.setSpeed 777) State.reset = State.reset ∧
    ({ base with portM := { base.portM with frame := .ignored } } : State).portM.frame = .ignored ∧
    after (.frameError .m .long) { base with portM := { base.portM with frame := .ignored } } = base := by decide +kernel

theorem test_witness_ResetClearsEverything :
    State.reset.power = .held ∧ (after .resetRelease State.reset).power = .waiting ∧
    (after .frameAcceptReady (after .resetRelease State.reset)).power = .ready ∧ base.power ≠ .held ∧
    State.reset.power ≠ .waiting ∧ after .frameAcceptReady State.reset = State.reset ∧
    (after .reset { worked with portP := { worked.portP with frame := .begun }, pending := [.start] }).portP.frame = .ignored ∧
    (after .reset { worked with pending := [.start] }).pending = [.start] ∧
    (after .reset worked).store = [] := by decide +kernel

theorem test_witness_FrameStartShiftsOutReply :
    after (.chipSelectAssert .p ⟨0, false⟩) base = base ∧ base.power = .ready ∧
    (after (.chipSelectAssert .p ⟨4, false⟩) base).portP.shiftedOut = [0x00, 0x02, crc8 [0x00, 0x02], 0x00] ∧
    (after (.chipSelectAssert .p ⟨1, false⟩) (after (.nop .p) base)).portP.shiftedOut = [0x00] ∧
    (after (.chipSelectAssert .m ⟨3, false⟩) (after (.nop .m) (inState .running))).portM.shiftedOut = [0x23, 0x00, crc8 [0x23, 0x00]] ∧
    State.reset.power ≠ .ready ∧ (after (.chipSelectAssert .p ⟨2, false⟩) State.reset).portP.shiftedOut = [0, 0] ∧
    (after (.chipSelectAssert .m ⟨2, true⟩) (after (.nop .m) (inState .running))).portM.shiftedOut = [0x23, 0x02] ∧
    (after (.chipSelectAssert .m ⟨2, true⟩) (after (.nop .m) (inState .running))).portM.reply = .empty := by decide +kernel

theorem test_witness_DecodeOfEncodedFrame :
    let i := Instr.arm 255 65535 0 65535 true 1 2 3 65535
    i.wellFormed = true ∧ (encodeFrame i).isSome = true ∧ ((encodeFrame i).bind (decodeFrame (framePort i))) = some i := by
  decide +kernel

theorem test_witness_FrameErrorsInOrder :
    isCommand (0x43 : Byte).toNat = false ∧ (Instr.setColours 0 0 []).wellFormed = true ∧
    frameContent (.setColours 0 0 []) = some (0x13, [0, 0, 0]) ∧ 0x01 ≠ crc8 [0x13, 0, 0, 0] ∧
    permitted .m (0x13 : Byte).toNat = false ∧ decodeFrame .p [0x13, 0, 0] = some (.frameError .p .short) ∧
    decodeFrame .p [0x13, 0, 0, 0] = some (.frameError .p .short) ∧ framePort (.setColours 0 0 []) = .p ∧
    decodeFrame .m [0x13, 0, 0, 0, crc8 [0x13, 0, 0, 0]] = some (.frameError .m .notPermitted) := by decide +kernel

/-- R166: LONG sets its flag and answers FRAME with sub-code 2; READ_PORT_ERRORS of port M leaves the record of port P. -/
theorem test_witness_FrameErrorsInOrder_record : base.takesFrame .p = true ∧
    answer .p (after (.frameError .p .long) base) = some (.frame, [2]) ∧
    answer .p (after (.readPortErrors .p) (after (.frameError .p .long) base)) = some (.ok, [2]) ∧
    (after (.readPortErrors .m) (after (.frameError .p .long) base)).portP.errors.long = true ∧
    (after (.readPortErrors .p) (after (.frameError .p .long) base)).portP.errors = .clear := by decide +kernel

theorem test_witness_ReadCommandsChangeNothing : worked.takesFrame .p = true ∧ worked.takesFrame .m = true ∧
    (worked.slot 4).state ≠ .empty ∧ answer .m (after (.identify .m) worked) = some (.ok, [0x24, 0x15, 0x01]) ∧
    answer .p (after (.readStatus .p) worked) = some (.ok, [0, 0, 0, 2]) ∧
    answer .p (after (.readColours 4 1 1) worked) = some (.ok, [1, 0, 7, 1]) ∧
    ((answer .p (after (.readColours 4 127 1) worked)).map (·.1)) = some .ok ∧
    ((answer .p (after (.readHeads 24 1) worked)).map (·.1)) = some .ok ∧
    ((answer .p (after (.readRepairs 47 8) worked)).map (·.1)) = some .ok ∧
    ((answer .p (after (.readSlot 15) worked)).map (·.1)) = some .ok ∧
    refusedWith (.readSlot 16) worked .p .range = true ∧ refusedWith (.readColours 4 127 2) worked .p .range = true ∧
    refusedWith (.readColours 4 0 17) worked .p .range = true ∧ refusedWith (.readColours 3 0 1) worked .p .absent = true ∧
    refusedWith (.readRepairs 48 1) worked .p .range = true ∧ refusedWith (.readRepairs 0 9) worked .p .range = true ∧
    refusedWith (.readHeads 24 2) worked .p .range = true ∧ refusedWith (.readHeads 0 1) worked .p .range = true := by
  decide +kernel

/-! ### Loading -/

/-- 1.10: L = 1,003 takes blocks 0 and 1, and position 491 of block 1 becomes padding. -/
theorem test_witness_OpenDesignTakesLowestFreeBlocks : base.takesFrame .p = true ∧
    refusedWith (.openDesign 16 1) base .p .range = true ∧ refusedWith (.openDesign 4 1) worked .p .state = true ∧
    refusedWith (.openDesign 0 0) base .p .range = true ∧ refusedWith (.openDesign 0 131073) base .p .range = true ∧
    refusedWith (.openDesign 0 2049) worked .p .noSpace = true ∧
    ((after (.openDesign 0 1003) base).slot 0).blockMap = [0, 1] ∧ (after (.openDesign 0 1003) base).pool.length = 510 ∧
    (after (.openDesign 0 1003) base).store = [(250, ⟨.blank, .blank, .blank, .padding, []⟩)] ∧
    answer .p (after (.openDesign 15 131072) base) = some (.ok, []) := by decide +kernel

/-- The worked design before its last two records, LOADING (2.11). -/
def loading : State :=
  { worked with
    slots := [(4, { SlotRecord.reset with state := .loading, length := 10, blockMap := [3] })],
    store := workedStore.take 2 ++ [(386, ⟨.blank, .blank, .padding, .padding, []⟩)] }

/-- 2.11: record 8 with dy −1,300 refuses the whole frame; ten records are one request of three chunks. -/
theorem test_witness_RecordFrameBecomesOneRequest : loading.takesFrame .p = true ∧ loading.arbiter.portP = none ∧
    (loading.slot 4).state = .loading ∧ 8 + [(⟨1, 0, 10, -300⟩ : WireRecord), ⟨6, 9, 5, 5⟩].length ≤ (loading.slot 4).length ∧
    storedRecords [⟨1, 0, 10, -300⟩, ⟨6, 9, 5, 5⟩] = some [rec4 .stitch 10 (-300), rec4 .endRecord 0 0] ∧
    (after (.writeRecords 4 8 [⟨1, 0, 10, -300⟩, ⟨6, 9, 5, 5⟩]) loading).arbiter.holder = some .portP ∧
    refusedWith (.writeRecords 4 8 [⟨1, 0, 10, -1300⟩]) loading .p .range = true ∧
    refusedWith (.writeRecords 16 0 [⟨6, 0, 0, 0⟩]) loading .p .range = true ∧ refusedWith (.writeRecords 4 0 []) loading .p .range = true ∧
    refusedWith (.writeRecords 4 99 [⟨9, 0, 0, 0⟩]) { loading with slots := [(4, { workedSlot with state := .closing })] } .p .busy = true ∧
    refusedWith (.readRecords 4 0 17) loading .p .range = true ∧ refusedWith (.readRecords 16 0 1) loading .p .range = true ∧
    storedRecord ⟨2, 1, 1270, -1270⟩ = some (rec4 .jump 1270 (-1270)) ∧ storedRecord ⟨1, 0, 1271, 0⟩ = none ∧
    storedRecord ⟨0, 0, 0, 0⟩ = none ∧ storedRecord ⟨7, 0, 0, 0⟩ = none ∧ storedRecord ⟨6, 15, 32767, 0⟩ = some (rec4 .endRecord 0 0) ∧
    (after (.readRecords 4 0 10) loading).arbiter.portP.map (fun a => a.spans.map (·.chunk)) = some [384, 385, 386] ∧
    (after (.readRecords 4 0 1) (serving .trace ⟨384, 0⟩ loading)).arbiter.holder = some (.internal .trace) := by
  decide +kernel

/-- 2.11: LENGTH before READ_ONLY, both recorded; then ABSENT is added and slot 4 and index 9 stand. -/
theorem test_witness_AccessFaultsRecordedAndCleared : worked.takesFrame .p = true ∧
    let two : List WireRecord := [⟨6, 0, 0, 0⟩, ⟨6, 0, 0, 0⟩]
    let one := after (.writeRecords 4 9 two) worked
    let twice := after (.readRecords 6 0 1) one
    (worked.slot 4).state ≠ .closing ∧ answer .p one = some (.length, []) ∧ answer .p twice = some (.absent, []) ∧
    one.faultRecord = ⟨true, some .portP, some .writeRecords, some 4, some 9, ⟨false, true, true, false⟩⟩ ∧
    twice.faultRecord = { one.faultRecord with kinds := ⟨true, true, true, false⟩ } ∧
    answer .p (after (.writeRecords 4 9 [⟨6, 0, 0, 0⟩]) worked) = some (.readOnly, []) := by decide +kernel

/-- A write of records 8 and 9 that holds the path. -/
def writing (lost : Bool) : State :=
  { loading with arbiter := { Arbiter.reset with
      holder := some .portP
      portP := some ⟨4, 7, 2, spansOf [3] 7 2, some [rec4 .trim 0 0, rec4 .stitch 10 (-300)], lost⟩ } }

/-- The same with two bits of a partly covered chunk changed, and with one. -/
def writingOver (bits : List Nat) : State :=
  { writing false with store := (loading.store.map fun e => if e.1 = 385 then (385, { e.2 with changed := bits }) else e) }

theorem test_witness_WriteRequestAllOrNone :
    let t := after .portStoreAccessDone (writing false)
    (writing false).power ≠ .held ∧ (writing false).arbiter.holder = some .portP ∧ [3].Nodup ∧ 7 + 2 ≤ 512 * [3].length ∧
    (∀ b ∈ [3], (writing false).runLocked b = false) ∧ (writing false).arbiter.portP.map (·.spans) = some (spansOf [3] 7 2) ∧
    (t.cellAt [3] 7, t.cellAt [3] 8) = (.written (rec4 .trim 0 0), .written (rec4 .stitch 10 (-300))) ∧
    answer .p t = some (.ok, []) ∧ (t.chunk 386).state = .partly ∧ t.chunk 384 = (writing false).chunk 384 ∧
    t.cellAt [3] 6 = .written (rec4 .trim 0 0) ∧ t.faultRecord = .reset ∧ t.events = [] ∧
    (after .portStoreAccessDone (writing true)).portP = base.portP ∧
    answer .p (after .portStoreAccessDone (writingOver [0, 70])) = some (.uncorrectable, [0, 0, 4]) ∧
    (after .portStoreAccessDone (writingOver [0, 70])).store = (writingOver [0, 70]).store ∧
    answer .p (after .portStoreAccessDone (writingOver [0])) = some (.ok, []) ∧
    ((after .portStoreAccessDone (writingOver [0])).chunk 385).changed = [] ∧
    kinds (after .portStoreAccessDone (writingOver [0])) = [.memoryCorrected] ∧
    (after .portStoreAccessDone (writingOver [0, 70])).faultRecord =
      ⟨true, some .portP, some .writeRecords, some 4, some 4, ⟨false, false, false, true⟩⟩ := by decide +kernel

/-- A read of records 7 to 9 that holds the path. -/
def reading : State :=
  { loading with arbiter := { Arbiter.reset with
      holder := some .portP, portP := some ⟨4, 7, 3, spansOf [3] 7 3, none, false⟩ } }

theorem test_witness_ReadRequestDeliversRecords :
    reading.power ≠ .held ∧ reading.arbiter.holder = some .portP ∧ 7 + 3 ≤ 512 * [3].length ∧
    (reading.chunk 385).changed = [] ∧ (reading.chunk 386).changed = [] ∧ chunkOf [3] 7 = 385 ∧ chunkOf [3] 9 = 386 ∧
    answer .p (after .portStoreAccessDone reading) = some (.ok,
      [3, 0x40, 0, 0, 0, 0, 0, 0x60, 0, 0, 0, 0, 0, 0x60, 0, 0, 0, 0, 0, 0]) ∧
    let spoilt := fun (bits : List Nat) => after .portStoreAccessDone { reading with
      slots := [(4, workedSlot)],
      store := reading.store.map fun e => if e.1 = 385 then (385, { e.2 with changed := bits }) else e }
    (answer .p (spoilt [200])).map (fun r => (r.1, r.2.getLast?)) = some (.ok, some 1) ∧ ((spoilt [200]).chunk 385).changed = [] ∧
    answer .p (spoilt [1, 200]) = some (.uncorrectable, [0, 0, 4]) ∧ ((spoilt [1, 200]).slot 4).state = .damaged ∧
    (spoilt [1, 200]).faultRecord = ⟨true, some .portP, some .readRecords, some 4, some 4, ⟨false, false, false, true⟩⟩ := by
  decide +kernel

/-- R3, R6: one changed bit is corrected, of the check code too; two are not. -/
theorem test_witness_OneBitCorrectedTwoBitsNot : (worked.chunk 384).state = .complete ∧ (worked.chunk 384).changed = [] ∧
    ((after (.storeBitChange 384 [0]) worked).readChunk 384).2 = .records (worked.chunk 384).contents true ∧
    ((after (.storeBitChange 384 [265]) worked).readChunk 384).1.chunk 384 = worked.chunk 384 ∧
    ((after (.storeBitChange 384 [265]) worked).readChunk 384).1.events.map (fun e => (e.kind, e.param)) = [(.memoryCorrected, 384)] ∧
    ((after (.storeBitChange 384 [0, 265]) worked).readChunk 384).2 = .uncorrectable ∧
    (after (.storeBitChange 384 [5, 5]) worked).chunk 384 = worked.chunk 384 := by decide +kernel

theorem test_witness_RecordFrameBecomesOneRequest_pause :
    let s := { worked with
      scan := some ⟨4, 4, ⟨0, 0⟩, 0, 0, .zero⟩, arbiter := { Arbiter.reset with closeScan := .pausing } }
    let held := { s with arbiter := { s.arbiter with holder := some .portP } }
    let idle := { worked with arbiter := { Arbiter.reset with walk := .pausing } }
    s.power ≠ .held ∧ s.arbiter.request .closeScan = .pausing ∧ s.wantedRead .closeScan = some ⟨385, 4⟩ ∧
    (after (.requestPauseExpiry .closeScan) s).arbiter.closeScan = .served ⟨385, 4⟩ true ∧
    (after (.requestPauseExpiry .closeScan) held).arbiter.closeScan = .waiting ⟨385, 4⟩ ∧
    idle.wantedRead .walk = none ∧ (after (.requestPauseExpiry .walk) idle).arbiter.walk = .idle := by decide +kernel

/-- The edit lock of R30: block 3 is the current one of a change. -/
theorem test_witness_SetColoursDefinesEntries : worked.takesFrame .p = true ∧
    refusedWith (.setColours 16 0 [⟨1, .auto⟩]) worked .p .range = true ∧ refusedWith (.setColours 4 0 []) worked .p .range = true ∧
    refusedWith (.setColours 4 0 (List.replicate 17 ⟨1, .auto⟩)) worked .p .range = true ∧
    refusedWith (.setColours 5 0 [⟨1, .auto⟩]) worked .p .absent = true ∧
    refusedWith (.setColours 4 0 [⟨1, .auto⟩]) { worked with slots := [(4, { workedSlot with state := .closing })] } .p .busy = true ∧
    refusedWith (.setColours 4 0 [⟨1, .auto⟩]) { worked with slots := [(4, { workedSlot with state := .damaged })] } .p .state = true ∧
    refusedWith (.setColours 4 127 [⟨1, .auto⟩, ⟨1, .auto⟩]) worked .p .range = true ∧
    refusedWith (.setColours 4 0 [⟨0, .auto⟩]) worked .p .range = true ∧
    refusedWith (.setColours 4 0 [⟨1, .auto⟩]) (inState .running) .p .locked = true ∧
    refusedWith (.setColours 4 5 [⟨1, .auto⟩]) (inState .walking) .p .busy = true ∧
    ((after (.setColours 4 1 [⟨9, .stop⟩]) (inState .changing)).slot 4).colour 1 = some ⟨9, .stop⟩ ∧
    ((after (.setColours 4 127 [⟨15, .auto⟩]) worked).slot 4).colour 127 = some ⟨15, .auto⟩ := by decide +kernel

theorem test_witness_CloseDesignStartsScan : loading.takesFrame .p = true ∧
    refusedWith (.closeDesign 16) loading .p .range = true ∧ refusedWith (.closeDesign 3) loading .p .state = true ∧
    refusedWith (.closeDesign 4) { worked with slots := [(4, { workedSlot with state := .closing })] } .p .busy = true ∧
    refusedWith (.closeDesign 4) { loading with scan := some ⟨5, 0, ⟨0, 0⟩, 0, 0, .zero⟩ } .p .busy = true ∧
    answer .p (after (.closeDesign 4) loading) = some (.accepted, []) ∧
    ((after (.closeDesign 4) loading).slot 4).state = .closing ∧
    (after (.closeDesign 4) (serving .trace ⟨0, 0⟩ loading)).arbiter.closeScan = .waiting ⟨384, 0⟩ ∧
    loading.arbiter.holder = none ∧ (after (.closeDesign 4) loading).arbiter.closeScan = .served ⟨384, 0⟩ true ∧
    (after (.closeDesign 4) loading).arbiter.holder = some (.internal .closeScan) ∧
    (after (.closeDesign 4) { loading with arbiter := { Arbiter.reset with closeScan := .pausing } }).arbiter.closeScan = .pausing := by
  decide +kernel

/-- R33 by record: END before the last, none at the last, the 128th COLOUR, a position off the span. -/
theorem test_witness_CloseScanExaminesRecords :
    let c : CloseScan := ⟨4, 0, ⟨0, 0⟩, 0, 0, .zero⟩
    (scanRecords 10 c (worked.chunk 384).contents).2 = none ∧
    (scanRecords 10 c (worked.chunk 384).contents).1 = ⟨4, 4, ⟨350, 190⟩, 1, 2, ⟨0, 350, 0, 200⟩⟩ ∧
    (scanRecords 2 c [rec4 .endRecord 0 0]).2 = some .earlyEnd ∧ (scanRecords 1 c [rec4 .trim 0 0]).2 = some .noEnd ∧
    (scanRecords 9 { c with colours := 127 } [rec4 .colour 0 0]).2 = some .colourCount ∧
    (scanRecords 9 { c with position := ⟨100000, 0⟩ } [rec4 .stitch 1 0]).2 = some .span ∧
    (scanRecords 9 { c with position := ⟨99999, 0⟩ } [rec4 .stitch 1 0]).2 = none := by decide +kernel

/-- A close scan of the worked design that has read the chunk of its index. -/
def closing (i : Nat) (x : Nat) (store : Table Chunk) : State :=
  serving .closeScan ⟨x, i⟩ { worked with
    slots := [(4, { SlotRecord.reset with state := .closing, length := 10, blockMap := [3] })], store := store
    scan := some ⟨4, i, ⟨270, 220⟩, 2, 4, ⟨0, 350, 0, 220⟩⟩ }

/-- 2.11: the scan of chunk 2 fails INCOMPLETE at index 9 before record 9 is written, and makes the slot READY after it. -/
theorem test_witness_CloseScanReadEnds :
    let s := closing 8 386 workedStore
    let part := closing 8 386 [(386, ⟨.written (rec4 .stitch 10 (-300)), .blank, .padding, .padding, []⟩)]
    let bad := closing 8 386 [(386, four (rec4 .endRecord 0 0) (rec4 .endRecord 0 0) (rec4 .trim 0 0) (rec4 .trim 0 0))]
    let first := closing 0 384 workedStore
    s.power ≠ .held ∧ s.arbiter.holder = some (.internal .closeScan) ∧ s.arbiter.closeScan = .served ⟨386, 8⟩ true ∧
    (s.chunk 386).changed = [] ∧ (s.chunk 386).state = .complete ∧ (part.chunk 386).state ≠ .complete ∧
    (after .closeScanReadDone s).slot 4 =
      { SlotRecord.reset with
        state := .ready, length := 10, blockMap := [3], colourCount := 2, stitchCount := 5, extents := ⟨0, 350, -80, 220⟩ } ∧
    kinds (after .closeScanReadDone s) = [.closeDone] ∧
    (after .closeScanReadDone part).events.map (·.param) = [0x40000009] ∧
    ((after .closeScanReadDone part).slot 4).state = .loading ∧ ((after .closeScanReadDone bad).slot 4).state = .loading ∧
    (after .closeScanReadDone bad).events.map (·.param) = [0x41000008] ∧
    (after .closeScanReadDone first).scan.map (·.index) = some 4 ∧ kinds (after .closeScanReadDone first) = [] ∧
    let broken := after .closeScanReadDone { s with store := s.store.map fun e => (e.1, { e.2 with changed := [0, 1] }) }
    (broken.slot 4).state = .damaged ∧ broken.events.map (·.param) = [0x45000008] ∧
    broken.faultRecord = ⟨true, some .closeScan, some .closeDesign, some 4, some 8, ⟨false, false, false, true⟩⟩ := by
  decide +kernel

theorem test_witness_DeleteReturnsBlocks : worked.takesFrame .p = true ∧
    refusedWith (.delete 16) worked .p .range = true ∧ refusedWith (.delete 4) armedState .p .inUse = true ∧
    refusedWith (.delete 4) { worked with slots := [(4, { workedSlot with keep := true })] } .p .kept = true ∧
    refusedWith (.delete 4) { worked with slots := [(4, { workedSlot with state := .closing })] } .p .busy = true ∧
    refusedWith (.delete 0) worked .p .absent = true ∧ (after (.delete 4) worked).pool = [0, 1, 2, 3, 4] ∧
    (after (.delete 4) worked).slots = [] := by decide +kernel

theorem test_witness_DeleteReturnsBlocks_keep : worked.takesFrame .p = true ∧ refusedWith (.keep 16 true) worked .p .range = true ∧
    refusedWith (.keep 15 true) worked .p .absent = true ∧ ((after (.keep 4 true) armedState).slot 4).keep = true ∧
    (after (.keep 4 false) worked).slots = worked.slots := by decide +kernel

theorem test_witness_AccessFaultsRecordedAndCleared_clear : worked.takesFrame .p = true ∧
    (after .clearFaultRecord (after (.readRecords 6 0 1) worked)).faultRecord = .reset ∧
    (answer .p (after .clearFaultRecord (after (.readRecords 6 7 1) worked))).map (fun r => r.2.take 11) =
      some [1, 0, 0, 0, 0x12, 0, 6, 0, 0, 0, 7] := by decide +kernel

/-! ### The run -/

/-- 4.10: ARM of the worked design; and each refusal of R60 by its test. -/
theorem test_witness_ArmSetsUpRun : worked.takesFrame .p = true ∧
    let arm := fun (k ox nowX : Nat) => Instr.arm k 1024 1024 360 false ox 500 nowX 400
    refusedWith (arm 16 1000 600) worked .p .range = true ∧ refusedWith (arm 4 1000 600) armedState .p .state = true ∧
    refusedWith (arm 4 1000 600) { worked with ring := { worked.ring with state := .enumerating } } .p .busy = true ∧
    refusedWith (arm 3 1000 600) worked .p .state = true ∧
    refusedWith (arm 4 1000 600) { worked with slots := [(4, { workedSlot with colours := workedSlot.colours.take 2 })] } .p .incomplete = true ∧
    refusedWith (arm 4 1000 600) { worked with constants := { worked.constants with needles := 6 } } .p .incomplete = true ∧
    refusedWith (arm 4 40001 600) worked .p .range = true ∧ refusedWith (arm 4 40000 40001) worked .p .range = true ∧
    answer .p (after (arm 4 1000 600) worked) = some (.accepted, []) ∧ (after (arm 4 1000 600) worked).run.transform.angle = 0 ∧
    (after (arm 4 1000 600) worked).arbiter.trace = .served ⟨384, 0⟩ true := by decide +kernel

/-- R39 to R41: clamped scales, the angle modulo 360, and the ends of the four quadrants. -/
theorem test_witness_ArmSetsUpRun_transform :
    ([(511, 2049, 725), (512, 2048, 90), (600, 600, 91), (600, 600, 180), (600, 600, 181), (600, 600, 270), (600, 600, 271),
      (600, 600, 359)].map fun (x : Nat × Nat × Nat) =>
        let f := (after (.arm 4 x.1 x.2.1 x.2.2 true 1000 500 600 400) worked).run.transform
        [(f.sx : Int), f.sy, f.angle, f.sine, f.cosine]) =
      [[512, 2048, 5, 1428, 16322], [512, 2048, 90, 16384, 0], [600, 600, 91, 16382, -286], [600, 600, 180, 0, -16384],
       [600, 600, 181, -286, -16382], [600, 600, 270, -16384, 0], [600, 600, 271, -16382, 286], [600, 600, 359, -286, 16382]] := by
  decide +kernel

/-- An arm trace of the worked design that has read a chunk. -/
def tracing (i x : Nat) (d : Point) (oy : Nat) (store : Table Chunk) : State :=
  serving .trace ⟨x, i⟩ { inState .arming with
    trace := some ⟨i, d⟩, store := store,
    run := { (inState .arming).run with transform := transformOf 1024 1024 0 false 1000 oy } }

/-- Case F of 3.9: the trace passes every chunk, and with origin (1000, 200) finds record 8 at (2120, −120). -/
theorem test_witness_TraceFindsFirstOutsideField_read :
    let fits := tracing 8 386 ⟨270, 220⟩ 500 workedStore
    let out := tracing 8 386 ⟨270, 220⟩ 200 workedStore
    let first := tracing 0 384 ⟨0, 0⟩ 500 workedStore
    let broken := tracing 8 386 ⟨270, 220⟩ 500 (workedStore.map fun e => (e.1, { e.2 with changed := [3, 9] }))
    fits.power ≠ .held ∧ fits.arbiter.holder = some (.internal .trace) ∧ fits.arbiter.trace = .served ⟨386, 8⟩ true ∧
    fits.run.state = .arming ∧ fits.run.armedSlot = some 4 ∧ (fits.chunk 386).state = .complete ∧
    (fits.chunk 386).changed = [] ∧ (broken.chunk 386).changed.length = 2 ∧
    (after .traceReadDone fits).run.state = .armed ∧ kinds (after .traceReadDone fits) = [.armDone] ∧
    (after .traceReadDone first).trace = some ⟨4, ⟨350, 190⟩⟩ ∧
    (after .traceReadDone out).run.state = .idle ∧ (after .traceReadDone out).events.map (·.target) = [some ⟨2120, -120⟩] ∧
    (after .traceReadDone out).events.map (·.param) = [0x40000008] ∧ ((after .traceReadDone out).slot 4).armed = false ∧
    ((after .traceReadDone broken).slot 4).state = .damaged ∧ (after .traceReadDone broken).faultRecord.source = some .trace ∧
    (after .traceReadDone broken).events.map (·.param) = [0x41000008] := by decide +kernel

theorem test_witness_TraceFindsFirstOutsideField :
    let tr := transformOf 1024 1024 0 false 1000 500
    (traceRecords Constants.reset tr 10 ⟨0, ⟨0, 0⟩⟩ (worked.chunk 384).contents).2 = none ∧
    (traceRecords Constants.reset tr 2 ⟨0, ⟨0, 0⟩⟩ [rec4 .jump 0 0, rec4 .stitch 0 (-126), rec4 .stitch 0 (-1000)]).2 =
      some (1, ⟨1000, -4⟩) ∧
    (traceRecords Constants.reset tr 1 ⟨0, ⟨0, 0⟩⟩ [rec4 .jump 0 (-125), rec4 .stitch 0 (-1)]).2 = none := by decide +kernel

/-- 4.10: START of the armed design begins a change to needle 3; on needle 3 it runs. -/
theorem test_witness_StartRunsOrChanges : armedState.takesFrame .p = true ∧
    refusedWith .start (inState .walking) .p .busy = true ∧ refusedWith .start (inState .finished) .p .state = true ∧
    refusedWith .start { armedState with heads := [] } .p .noHeads = true ∧
    (after .start armedState).run.state = .changing ∧ (after .start armedState).change.map (·.confirm) = some [1, 2, 3, 4] ∧
    (after .start armedState).ring.requests = [⟨.selectNeedle, 31, 3⟩] ∧
    (after .start (inState .paused)).run.state = .running ∧ (after .start (inState .paused)).seq.ramp = 5 := by decide +kernel

/-- The walk of the armed design that stands at index 6. -/
def walking : State :=
  { inState .walking with walk := some ⟨.walk, .toIndex, 2, .back, 6, ⟨270, 220⟩, 1, 0, [], false⟩ }

/-- A change in progress to needle 7. -/
def changing : State :=
  { inState .changing with change := some ⟨7, .auto, true, [1, 3], some 800, false⟩ }

theorem test_witness_StopActsByRunState : armedState.takesFrame .p = true ∧ armedState.takesFrame .m = true ∧
    (after (.stop .m) (inState .running)).run.stopReason = .motionRequest ∧
    (after (.stop .p) (inState .running)).run.state = .stopping ∧
    (after (.stop .p) changing).change.map (·.action) = some .pause ∧ (after (.stop .p) changing).run.state = .changing ∧
    walking.walk.map (·.listEmptied) = some false ∧ (after (.stop .p) walking).run.cursor = 6 ∧
    (after (.stop .p) walking).run.state = .paused ∧ (after (.stop .p) walking).events.map (·.param) = [0x02000006] ∧
    (after (.stop .p) (tracing 0 384 ⟨0, 0⟩ 500 workedStore)).run.state = .idle ∧
    refusedWith (.stop .m) (inState .finished) .m .ok = true := by decide +kernel

theorem test_witness_DisarmReleasesRun : armedState.takesFrame .p = true ∧ refusedWith .disarm worked .p .state = true ∧
    refusedWith .disarm (inState .changing) .p .state = true ∧
    let s : State := { inState .paused with
      heads := [(1, { HeadRecord.reset with state := .heldFault, cause := some (.thread .breakFault) }),
                (2, { HeadRecord.reset with state := .heldNeedle }), (3, { HeadRecord.reset with state := .heldOperator })],
      inhibit := [(2, 0x0008)] }
    s.barred 2 = true ∧ ((after .disarm s).head 1).state = .active ∧ ((after .disarm s).head 2).state = .heldNeedle ∧
    ((after .disarm s).head 3).state = .heldOperator ∧ (after .disarm s).run.state = .idle ∧
    ((after .disarm s).slot 4).armed = false ∧ (after .disarm (tracing 0 384 ⟨0, 0⟩ 500 workedStore)).trace = none := by
  decide +kernel

theorem test_witness_CeilingIsExact_speed : worked.takesFrame .p = true ∧
    answer .p (after (.setSpeed 99) worked) = some (.ok, [0, 100]) ∧ (after (.setSpeed 109) worked).run.speed = 100 ∧
    (after (.setSpeed 1200) worked).run.speed = 1200 ∧ (after (.setSpeed 1201) worked).run.speed = 1200 := by decide +kernel

/-! ### The Move Queue and the motion exchange -/

/-- RUNNING at a record of the worked design, its chunk in the buffer, the frame at the record's start. -/
def atRecord (i : Nat) (d : Point) : State :=
  let s := inState .running
  { s with
    seq := { s.seq with
      cursor := i, design := d, frame := target s.run.transform d, ramp := 5, approach := false,
      buffer := some ⟨384 + i / 4, ((s.chunk (384 + i / 4)).contents)⟩ } }

/-- 4.10: record 0 is a JUMP of (1200, 800) from (1000, 500) in three pieces, the first (400, 267) under 400. -/
theorem test_witness_TurnPlacesFirstPiece :
    let s := atRecord 0 ⟨0, 0⟩
    let one := atRecord 1 ⟨300, 200⟩
    s.power ≠ .held ∧ s.mayPrepare = true ∧ s.seq.split = none ∧ s.seq.halt = none ∧ s.seq.approach = false ∧
    s.atJoin = false ∧ s.bufferedRecord = some (rec4 .jump 300 200) ∧
    (after .prepareTurn s).queue.prepared.map (fun t => (t.kind, t.mx, t.my, t.ceiling)) = [(.travel, 400, 267, some 400)] ∧
    (after .prepareTurn s).seq.split.map (·.pieces) = some 3 ∧ (after .prepareTurn s).seq.ramp = 5 ∧
    one.bufferedRecord = some (rec4 .stitch 25 0) ∧
    (after .prepareTurn one).queue.prepared.map (fun t => (t.kind, t.mx, t.lastOfRecord)) = [(.step, 100, true)] ∧
    (after .prepareTurn one).seq.cursor = 2 ∧ (after .prepareTurn one).seq.ramp = 4 := by decide +kernel

/-- 4.10: the three pieces of record 0 in turn; the approach from (600, 400) to the origin; a zero approach; R47. -/
theorem test_witness_TurnPlacesLaterPieceOrApproach :
    let two := after .prepareTurn (atRecord 0 ⟨0, 0⟩)
    let three := after .prepareTurn two
    let owing := { inState .running with seq := { (inState .running).seq with frame := ⟨600, 0⟩ } }
    let far := after .prepareTurn owing
    let zero : State := { atRecord 1 ⟨300, 200⟩ with seq := { (atRecord 1 ⟨300, 200⟩).seq with approach := true } }
    two.power ≠ .held ∧ two.mayPrepare = true ∧ two.seq.split.map (fun p => (p.owner, p.prepared)) = some (.record, 1) ∧
    two.bufferedRecord = some (rec4 .jump 300 200) ∧ three.seq.split.map (·.prepared) = some 2 ∧
    (after .prepareTurn three).queue.prepared.map (fun t => (t.mx, t.my, t.lastOfRecord)) =
      [(400, 267, false), (400, 266, false), (400, 267, true)] ∧
    (after .prepareTurn three).seq.split = none ∧ (after .prepareTurn three).seq.cursor = 1 ∧
    owing.mayPrepare = true ∧ owing.seq.split = none ∧ owing.seq.halt = none ∧ owing.seq.approach = true ∧
    target owing.run.transform owing.seq.design ≠ owing.seq.frame ∧ far.seq.split.map (·.owner) = some .approach ∧
    far.queue.prepared.map (fun t => (t.kind, t.mx, t.my, t.lastOfRecord, t.role)) = [(.travel, 200, 250, false, .approach)] ∧
    (after .prepareTurn far).seq.frame = ⟨1000, 500⟩ ∧ (after .prepareTurn far).seq.approach = false ∧
    (after .prepareTurn far).seq.split = none ∧
    target zero.run.transform zero.seq.design = zero.seq.frame ∧ (after .prepareTurn zero).seq.cursor = 2 ∧
    (after .prepareTurn zero).seq.approach = false := by decide +kernel

/-- 4.10: the TRIM of record 6, the TRIM in front of the COLOUR halt of record 3 and its HALT; END; a JOIN. -/
theorem test_witness_TurnPlacesTrimOrHalt :
    let colour := atRecord 3 ⟨350, 190⟩
    let placed := after .prepareTurn colour
    let join : State := { atRecord 5 ⟨310, 205⟩ with
      run := { (atRecord 5 ⟨310, 205⟩).run with pass := .repair },
      heads := [(2, { HeadRecord.reset with state := .waiting, joinIndex := some 5 })] }
    colour.power ≠ .held ∧ colour.mayPrepare = true ∧ colour.bufferedRecord = some (rec4 .colour 0 0) ∧
    placed.queue.prepared.map (·.kind) = [.trim] ∧ placed.seq.halt = some ⟨.colour, true⟩ ∧ placed.seq.cursor = 3 ∧
    (after .prepareTurn placed).queue.prepared.map (fun t => (t.seq, t.kind, t.reason)) =
      [(0, .trim, none), (1, .halt, some .colour)] ∧ (after .prepareTurn placed).seq.cursor = 4 ∧
    (after .prepareTurn placed).mayPrepare = false ∧
    after .prepareTurn (after .prepareTurn placed) = after .prepareTurn placed ∧
    (after .prepareTurn { colour with constants := { colour.constants with trimAtChange := false } }).queue.prepared.map
      (·.reason) = [some .colour] ∧
    (after .prepareTurn (atRecord 6 ⟨270, 220⟩)).seq.cursor = 7 ∧
    (after .prepareTurn (atRecord 9 ⟨280, -80⟩)).seq.halt = some ⟨.endRecord, true⟩ ∧
    (after .prepareTurn { atRecord 3 ⟨350, 190⟩ with
      seq := { (atRecord 3 ⟨350, 190⟩).seq with buffer := some ⟨384, List.replicate 4 (rec4 .pause 0 0)⟩ } }).queue.prepared.map
      (·.reason) = [some .pause] ∧
    join.atJoin = true ∧ (after .prepareTurn join).queue.prepared.map (·.reason) = [some .join] ∧
    (after .prepareTurn join).seq.cursor = 5 := by decide +kernel

theorem test_witness_PrepareReadFillsBufferOrStops :
    let s := serving .sequencer ⟨385, 4⟩ (inState .running)
    let bad : State := { s with store := s.store.map fun e => (e.1, { e.2 with changed := [0, 1] }) }
    s.power ≠ .held ∧ s.arbiter.holder = some (.internal .sequencer) ∧ s.arbiter.sequencer = .served ⟨385, 4⟩ true ∧
    (s.chunk 385).state = .complete ∧ (s.chunk 385).changed = [] ∧ (bad.chunk 385).changed.length = 2 ∧
    bad.run.state = .running ∧ (after .prepareReadDone s).seq.buffer = some ⟨385, (s.chunk 385).contents⟩ ∧
    (after .prepareReadDone bad).run.stopReason = .memory ∧ (after .prepareReadDone bad).run.faultChunk = some 385 ∧
    (after .prepareReadDone bad).run.state = .stopping ∧
    let one : State := { s with store := s.store.map fun e => (e.1, { e.2 with changed := [7] }) }
    (after .prepareReadDone one).seq.buffer = some ⟨385, (s.chunk 385).contents⟩ ∧
    kinds (after .prepareReadDone one) = [.memoryCorrected] ∧
    let asking : State := { atRecord 4 ⟨350, 190⟩ with seq := { (atRecord 4 ⟨350, 190⟩).seq with buffer := none } }
    asking.mayPrepare = true ∧ asking.atJoin = false ∧ asking.seq.cursor < asking.designLength ∧ asking.arbiter.sequencer = .idle ∧
    (after .prepareTurn asking).arbiter.sequencer = .served ⟨385, 4⟩ true ∧
    (after .prepareTurn { asking with arbiter := { asking.arbiter with holder := some .portP } }).arbiter.sequencer =
      .waiting ⟨385, 4⟩ ∧
    after .prepareTurn { asking with arbiter := { asking.arbiter with sequencer := .pausing } } =
      { asking with arbiter := { asking.arbiter with sequencer := .pausing } } ∧
    (atRecord 4 ⟨350, 190⟩).bufferedRecord = some (rec4 .stitch (-40) 15) := by decide +kernel

/-- Tokens 300 on, `issued` of them issued and `left` prepared (5.9). -/
def moving (issued left : Nat) : State :=
  { inState .running with queue := {
      issued := (List.range issued).map fun k => stepToken (300 + k) (40 + k),
      prepared := (List.range left).map fun k => stepToken (300 + issued + k) (40 + issued + k),
      nextSeq := 300 + issued + left, lastDone := some 299, starved := false } }

theorem test_witness_FetchIssuesOldestTokens : (moving 2 9).takesFrame .m = true ∧
    refusedWith (.fetchMoves 0) (moving 2 9) .m .range = true ∧ refusedWith (.fetchMoves 9) (moving 2 9) .m .range = true ∧
    (after (.fetchMoves 8) (moving 2 9)).queue.issued.length = 10 ∧ (after (.fetchMoves 1) (moving 2 9)).queue.prepared.length = 8 ∧
    (after (.fetchMoves 8) (moving 30 9)).queue.issued.length = 32 ∧
    ((answer .m (after (.fetchMoves 1) (moving 0 1))).map (·.2)) =
      some [1, 1, 44, 0x10, 0, 40, 0, 0, 60, 0, 0, 40] ∧
    kinds (after (.fetchMoves 8) (moving 2 0)) = [.queueStarved] ∧
    kinds (after (.fetchMoves 8) (after (.fetchMoves 8) (moving 2 0))) = [.queueStarved] ∧
    answer .m (after (.fetchMoves 8) { moving 2 9 with run := { (moving 2 9).run with state := .paused } }) = some (.ok, [0]) := by
  decide +kernel

/-- 5.9: DONE (300) moves the executed cursor to 41. -/
theorem test_witness_DoneCompletesByCheckpoints : (moving 4 2).takesFrame .m = true ∧
    refusedWith (.done 304) (moving 4 2) .m .sequence = true ∧
    (moving 4 2).queue.issued = [] ++ stepToken 300 40 :: ((moving 4 2).queue.issued.drop 1) ∧ (moving 4 2).run.pass = .main ∧
    (after (.done 300) (moving 4 2)).run.cursor = 41 ∧ (after (.done 300) (moving 4 2)).run.frame = ⟨5440, 5200⟩ ∧
    answer .m (after (.done 300) (moving 4 2)) = some (.ok, [1, 0, 0, 41]) ∧
    (after (.done 303) (moving 4 2)).queue.issued = [] ∧ ((after (.done 303) (moving 4 2)).head 1).noMotion = 4 := by
  decide +kernel

/-- R136, R138, R139: head 1 has K − 1 stitches without motion when one more completes; under STOP_ALL the run stops. -/
theorem test_witness_BreakFoundAtHandover :
    let s : State := { moving 2 1 with
      heads := [(1, { HeadRecord.reset with state := .active, noMotion := 4, lastMotion := 30 }),
                (2, { HeadRecord.reset with state := .active }), (3, { HeadRecord.reset with state := .heldOperator, noMotion := 4 })] }
    let all : State := { s with constants := { s.constants with faultPolicy := .stopAll } }
    let t := after (.done 300) s
    s.takesFrame .m = true ∧ s.run.pass = .main ∧ s.queue.issued = [] ++ stepToken 300 40 :: [stepToken 301 41] ∧
    (stepToken 300 40).kind ≠ .halt ∧ (stepToken 300 40).reason = none ∧ s.run.state = .running ∧
    (t.head 1).state = .heldFault ∧ (t.head 1).noMotion = 5 ∧ (t.head 2).noMotion = 1 ∧ (t.head 3).noMotion = 4 ∧
    t.repairs = [⟨1, .fault .breakFault, 27, none, none, none, false⟩] ∧ t.ring.requests = [⟨.presser, 1, 1⟩, ⟨.lamp, 1, 3⟩] ∧
    t.events.map (fun e => (e.kind, e.head, e.param)) = [(.threadBreak, 1, 27)] ∧ t.run.state = .running ∧
    (after (.done 300) all).run.state = .stopping ∧ (after (.done 300) all).run.stopReason = .fault ∧
    (after (.done 301) { s with heads := s.heads.take 1 }).run.stopReason = .fault ∧
    (after (.done 300) { s with heads := [] }).events = [] ∧
    (after (.done 300) { all with run := { all.run with state := .stopping, stopReason := .panel } }).run.stopReason = .panel := by
  decide +kernel

/-- 5.9: STOPPED (301) empties the queue, and the run is PAUSED with reason MOTION. -/
theorem test_witness_StoppedRollsBackToExecutedPoint : (moving 4 2).takesFrame .m = true ∧
    refusedWith (.stopped 0 304) (moving 4 2) .m .sequence = true ∧ refusedWith (.stopped 1 0) (moving 4 2) .m .sequence = true ∧
    refusedWith (.stopped 2 300) (moving 4 2) .m .sequence = true ∧
    (after (.stopped 0 301) (moving 4 2)).run.state = .paused ∧ (after (.stopped 0 301) (moving 4 2)).run.stopReason = .motion ∧
    (after (.stopped 0 301) (moving 4 2)).queue = ⟨[], [], 306, some 301, false⟩ ∧
    (after (.stopped 0 301) (moving 4 2)).seq.cursor = 42 ∧ kinds (after (.stopped 0 301) (moving 4 2)) = [.runStopped] ∧
    answer .m (after (.stopped 0 299) (moving 0 2)) = some (.ok, [0, 0, 0, 0]) ∧
    (after (.stopped 0 301) (moving 4 2)).run.frame = ⟨5440, 5200⟩ ∧ (after (.stopped 0 301) (moving 4 2)).run.design = ⟨110, 50⟩ ∧
    answer .m (after (.stopped 1 7) { moving 0 2 with queue := { (moving 0 2).queue with lastDone := none } }) =
      some (.ok, [0, 0, 0, 0]) := by decide +kernel

/-- The HALT token of a reason. -/
def haltToken (r : HaltReason) : Token :=
  { stepToken 307 3 with kind := .halt, reason := some r, mx := 0, my := 0, ceiling := none }

theorem test_witness_HaltResolvesByReason :
    let running : State := { inState .running with run := { (inState .running).run with cursor := 4, colourBlock := 1 } }
    let stopping : State := { inState .stopping with run := { (inState .stopping).run with colourBlock := 1, stopReason := .panel } }
    let memory : State := { stopping with run := { stopping.run with stopReason := .memory } }
    (∃ h ∈ headNumbers, running.present h = true) ∧
    (running.resolveHalt (haltToken .pause)).run.stopReason = .pause ∧
    (running.resolveHalt (haltToken .endRecord)).run.state = .finished ∧
    ((running.resolveHalt (haltToken .colour)).change.map fun c => (c.target, c.action)) = some (7, .stop) ∧
    ((stopping.resolveHalt (haltToken .colour)).change.map fun c => (c.target, c.action)) = some (7, .pause) ∧
    (stopping.resolveHalt (haltToken .pause)).run = { stopping.run with state := .paused } ∧
    (memory.resolveHalt (haltToken .pause)).run.state = .fault ∧ ((memory.resolveHalt (haltToken .pause)).slot 4).state = .damaged ∧
    ({ stopping with run := { stopping.run with stopReason := .repairDone } }.resolveHalt (haltToken .endRecord)).run.state =
      .finished ∧
    let joining : State := { running with
      run := { running.run with pass := .repair },
      heads := [(1, { HeadRecord.reset with state := .waiting, joinIndex := some 4 }),
                (2, { HeadRecord.reset with state := .waiting, joinIndex := some 4 }),
                (3, { HeadRecord.reset with state := .waiting, joinIndex := some 5 })],
      inhibit := [(2, 0x0008)], repairs := [⟨1, .fault .tension, 4, none, none, none, false⟩] }
    let joined := joining.resolveHalt (haltToken .join)
    joining.barred 2 = true ∧ (joined.head 1).state = .active ∧ (joined.head 2).state = .heldNeedle ∧ (joined.head 3).state = .waiting ∧
    joined.repairs = [⟨1, .fault .tension, 4, none, none, none, true⟩, ⟨2, .skip, 4, some 1, none, none, false⟩] ∧
    joined.run.state = .running ∧
    (joining.resolveHalt (haltToken .endRecord)).events.map (fun e => (e.kind, e.param)) = [(.designEnd, 1), (.repairDone, 1)] ∧
    kinds ({ joining with run := { joining.run with state := .stopping, stopReason := .panel } }.resolveHalt (haltToken .join)) =
      [.runStopped] := by decide +kernel

/-- R67, R72: STOPPED in STOPPING with reason MEMORY, and with reason REPAIR_DONE. -/
theorem test_witness_StoppedRollsBackToExecutedPoint_rows :
    let s := fun (r : StopReason) =>
      { moving 4 2 with run := { (moving 4 2).run with state := .stopping, stopReason := r, faultChunk := some 386 } }
    (s .memory).takesFrame .m = true ∧ (s .memory).run.armedSlot = some 4 ∧ ((s .memory).slot 4).state = .ready ∧
    (∀ k ∈ (s .memory).queue.issued, k.kind ≠ .halt) ∧ (after (.stopped 0 301) (s .memory)).run.state = .fault ∧
    ((after (.stopped 0 301) (s .memory)).slot 4).state = .damaged ∧
    (after (.stopped 0 301) (s .memory)).events.map (fun e => (e.kind, e.param)) = [(.memoryFault, 386)] ∧
    (after (.stopped 0 301) (s .repairDone)).run.state = .finished ∧
    (after (.stopped 0 301) (s .repairDone)).events.map (fun e => (e.kind, e.param)) = [(.repairDone, 0)] := by decide +kernel

/-- R87: a DONE that names a HALT; a break at its handover under STOP_ALL comes before the halt. -/
theorem test_witness_HaltReportsThroughExec :
    let s := fun (r : HaltReason) => { moving 0 2 with queue := { (moving 0 2).queue with issued := [stepToken 306 2, haltToken r] } }
    let broken := fun (r : HaltReason) => { s r with
      constants := { (s r).constants with faultPolicy := .stopAll },
      heads := [(1, { HeadRecord.reset with state := .active, noMotion := 4 })] }
    (s .pause).takesFrame .m = true ∧ (s .pause).queue.issued = [stepToken 306 2] ++ haltToken .pause :: [] ∧
    (haltToken .pause).kind = .halt ∧ (haltToken .pause).lastOfRecord = true ∧ (s .pause).run.pass = .main ∧
    (s .pause).run.state = .running ∧ (∃ h ∈ headNumbers, (broken .colour).present h = true) ∧
    after (.done 307) (s .colour) = after (.stopped 0 307) (s .colour) ∧
    (after (.done 307) (s .pause)).run.state = .paused ∧ (after (.done 307) (s .pause)).run.stopReason = .pause ∧
    (after (.done 307) (s .pause)).queue.prepared = [] ∧ (after (.done 307) (s .pause)).seq.cursor = 4 ∧
    (after (.done 307) (s .endRecord)).run.state = .finished ∧
    (after (.done 307) (s .colour)).change.map (fun c => (c.target, c.action)) = some (7, .stop) ∧
    (after (.done 307) (broken .colour)).change.map (fun c => (c.target, c.action)) = some (7, .pause) ∧
    (after (.done 307) (broken .pause)).run.stopReason = .fault ∧ (after (.done 307) (broken .pause)).run.state = .paused := by
  decide +kernel

/-! ### Walks and repair passes -/

/-- The run PAUSED at index 8, block 2, position (270, 220), as before the walks of 6.8. -/
def pausedAt8 : State :=
  { inState .paused with run := { (inState .paused).run with cursor := 8, design := ⟨270, 220⟩, colourBlock := 2, frame := ⟨2093, 980⟩ } }

theorem test_witness_WalkStartsFromExecutedPoint : pausedAt8.takesFrame .p = true ∧
    refusedWith (.walk 4 1) pausedAt8 .p .range = true ∧ refusedWith (.walk 0 0) pausedAt8 .p .range = true ∧
    refusedWith (.walk 1 10000) pausedAt8 .p .range = true ∧ refusedWith (.walk 2 0) (inState .arming) .p .busy = true ∧
    refusedWith (.walk 2 0) { pausedAt8 with scan := some ⟨4, 0, ⟨0, 0⟩, 0, 0, .zero⟩ } .p .busy = true ∧
    refusedWith (.walk 2 0) (inState .running) .p .state = true ∧
    (after (.walk 0 2) pausedAt8).arbiter.walk = .served ⟨385, 7⟩ true ∧
    (after (.walk 2 99) pausedAt8).walk.map (fun w => (w.goal, w.direction)) = some (9, .forward) ∧
    (after (.walk 3 1) pausedAt8).walk.map (fun w => (w.goal, w.direction)) = some (1, .back) ∧
    (after (.walk 2 8) pausedAt8).run.state = .paused ∧ (after (.walk 2 8) pausedAt8).seq.approach = true ∧
    (after (.walk 2 8) pausedAt8).events.map (·.param) = [0x00000008] ∧
    (after (.walk 0 1) { armedState with run := { armedState.run with state := .finished } }).events.map (·.param) = [0x01000000] := by
  decide +kernel

/-- A BACK walk over two stitches that has read the record before index `i` (6.8). -/
def backWalk (i : Nat) (d : Point) (b n : Nat) : State :=
  serving .walk ⟨384 + (i - 1) / 4, i - 1⟩ { pausedAt8 with
    run := { pausedAt8.run with state := .walking }, walk := some ⟨.walk, .back, 2, .back, i, d, b, n, [], false⟩ }

theorem test_witness_WalkStepsAndWalkReadEnds :
    let s := backWalk 8 ⟨270, 220⟩ 2 0
    let last := backWalk 5 ⟨310, 205⟩ 1 1
    s.power ≠ .held ∧ s.arbiter.holder = some (.internal .walk) ∧ s.arbiter.walk = .served ⟨385, 7⟩ true ∧
    (s.chunk 385).state = .complete ∧ (s.chunk 385).changed = [] ∧ s.walk.map (·.listEmptied) = some false ∧
    (after .walkReadDone s).walk.map (fun w => (w.cursor, w.colourBlock, w.stitches)) = some (7, 1, 0) ∧
    (after .walkReadDone last).walk = none ∧ (after .walkReadDone last).run.cursor = 4 ∧
    (after .walkReadDone last).run.design = ⟨350, 190⟩ ∧ (after .walkReadDone last).run.frame = ⟨2093, 980⟩ ∧
    (after .walkReadDone last).events.map (·.param) = [0x00000004] ∧
    let broken := after .walkReadDone { s with store := s.store.map fun e => (e.1, { e.2 with changed := [0, 1] }) }
    s.run.armedSlot = some 4 ∧ s.walk.map (·.deferredSkips) = some [] ∧ broken.run.cursor = 8 ∧ broken.run.state = .paused ∧
    broken.events.map (fun e => (e.kind, e.param)) = [(.memoryFault, 385), (.walkDone, 0x03000008)] ∧
    (broken.slot 4).state = .damaged ∧
    broken.faultRecord = ⟨true, some .walk, some .walk, some 4, some 4, ⟨false, false, false, true⟩⟩ := by decide +kernel

/-- The Repair List of 10.7. -/
def workedRepairs : List RepairEntry :=
  [⟨3, .fault .breakFault, 2, none, none, some 1, true⟩, ⟨1, .skip, 5, some 1, some 7, none, false⟩]

/-- The end of the MAIN pass with repairs owed, as in 10.7. -/
def finishedOwing : State :=
  { inState .finished with
    run := { (inState .finished).run with cursor := 10, design := ⟨280, -80⟩, colourBlock := 2, outstanding := true },
    repairs := workedRepairs }

theorem test_witness_RepairStartsPass : finishedOwing.takesFrame .p = true ∧
    refusedWith .repair (inState .walking) .p .busy = true ∧ refusedWith .repair armedState .p .state = true ∧
    refusedWith .repair (inState .finished) .p .state = true ∧ (∃ e ∈ finishedOwing.repairs, e.fromIndex = 2) ∧
    (∀ e ∈ finishedOwing.repairs, 2 ≤ e.fromIndex) ∧ Nat.min 2 (finishedOwing.designLength - 1) ≠ finishedOwing.run.cursor ∧
    (after .repair finishedOwing).run.pass = .repair ∧ (after .repair finishedOwing).run.outstanding = false ∧
    (after .repair finishedOwing).arbiter.walk = .served ⟨386, 9⟩ true ∧
    (after .repair finishedOwing).repairs.map (fun e => (e.sewing, e.deferred)) = [(false, none), (false, none)] := by
  decide +kernel

/-- 10.7: head 1 waits, head 2 rests, head 3 sews; head 4 is held by the operator, and head 5 has its needle inhibited. -/
theorem test_witness_RepairStartsPass_places :
    let s : State := { finishedOwing with
      run := { finishedOwing.run with pass := .repair, cursor := 2 }, seq := { finishedOwing.seq with cursor := 2 },
      heads := [(1, { HeadRecord.reset with state := .active }), (2, { HeadRecord.reset with state := .active }),
                (3, { HeadRecord.reset with state := .heldFault }), (4, { HeadRecord.reset with state := .heldOperator }),
                (5, { HeadRecord.reset with state := .active })],
      inhibit := [(5, 0x0008)],
      repairs := sortEntries (⟨5, .skip, 2, some 0, none, none, false⟩ :: workedRepairs.map fun e => { e with sewing := false }) }
    s.run.pass = .repair ∧ s.seq.cursor = s.run.cursor ∧ (∀ e ∈ s.repairs, e.sewing = false) ∧
    (s.placeAll.head 1).state = .waiting ∧ (s.placeAll.head 1).joinIndex = some 5 ∧ (s.placeAll.head 2).state = .resting ∧
    (s.placeAll.head 3).state = .active ∧ (s.placeAll.head 3).joinIndex = some 2 ∧ (s.placeAll.head 4).state = .heldOperator ∧
    (s.placeAll.head 5).state = .heldNeedle ∧ (s.placeAll.head 6).state = .absent ∧
    s.placeAll.repairs.map (fun e => (e.head, e.sewing)) = [(3, true), (5, false), (1, false)] := by decide +kernel

/-- R149: the walk of REPAIR ends by STOP, by the read that reaches its goal, by an uncorrectable read, or at once. -/
theorem test_witness_RepairStartsPass_ends :
    let w : WalkRecord := ⟨.repair, .toIndex, 4, .back, 5, ⟨310, 205⟩, 1, 0, [], false⟩
    let s : State := { serving .walk ⟨385, 4⟩ (inState .walking) with
      run := { (inState .walking).run with pass := .repair, cursor := 10 }, walk := some w,
      repairs := [⟨3, .fault .tension, 4, none, none, none, false⟩, ⟨1, .skip, 5, some 1, some 7, none, false⟩] }
    let heads := fun (t : State) => [1, 2, 3].map fun h => ((t.head h).state, (t.head h).joinIndex)
    let broken : State := { s with store := s.store.map fun e => (e.1, { e.2 with changed := [0, 1] }) }
    let paused : State := { s with run := { s.run with state := .paused, cursor := 4 }, walk := none }
    s.takesFrame .m = true ∧ s.power ≠ .held ∧ (s.chunk 385).state = .complete ∧ (s.chunk 385).changed = [] ∧
    heads (after (.stop .m) s) = [(.active, some 5), (.resting, none), (.resting, none)] ∧
    heads (after .walkReadDone s) = [(.waiting, some 5), (.resting, none), (.active, some 4)] ∧
    heads (after .walkReadDone broken) = [(.active, some 5), (.resting, none), (.resting, none)] ∧
    heads (after .repair paused) = [(.waiting, some 5), (.resting, none), (.active, some 4)] ∧
    (after .repair paused).run.state = .paused ∧ kinds (after .repair paused) = [.walkDone] := by decide +kernel

/-- A repair pass in a run state at cursor 7, with one issued token, the heads given ACTIVE and a list. -/
def repairing (st : RunState) (k : Token) (heads : List Nat) (l : List RepairEntry) : State :=
  { inState st with
    run := { (inState st).run with pass := .repair, cursor := 7, colourBlock := 1 },
    seq := { (inState st).seq with cursor := 8 }, queue := { MoveQueue.reset with issued := [k] },
    heads := heads.map fun h => (h, { HeadRecord.reset with state := .active, lastMotion := 6, joinIndex := some 4 }), repairs := l }

/-- R151: the SKIP of head 1 to 7 is passed at 8; with another entry it waits, or sews on where the Sequencer has passed that. -/
theorem test_witness_RepairPassRuns :
    let skip : RepairEntry := ⟨1, .skip, 5, some 1, some 7, none, true⟩
    let later : RepairEntry := ⟨1, .skip, 9, some 2, none, none, false⟩
    let fault : RepairEntry := ⟨3, .fault .breakFault, 2, none, none, none, true⟩
    let s := fun (l : List RepairEntry) => repairing .running (stepToken 300 7) [1, 3] l
    let ahead : State := { s [skip, later] with seq := { (s []).seq with cursor := 9 } }
    (s [fault, skip]).takesFrame .m = true ∧ (stepToken 300 7).index + 1 < (s []).designLength ∧
    (∀ h ∈ headNumbers, ((s []).head h).state = .active → ((s []).head h).noMotion + 1 < (s []).constants.motionLimit) ∧
    (∀ e ∈ [fault, skip, later], e.deferred = none ∧ (e.sewing = true → ((s []).head e.head).state = .active)) ∧
    (after (.done 300) (s [fault, skip])).repairs = [fault] ∧ ((after (.done 300) (s [fault, skip])).head 1).state = .resting ∧
    (after (.done 300) (s [fault, skip])).run.state = .running ∧
    (after (.done 300) (s [skip])).run.state = .stopping ∧ (after (.done 300) (s [skip])).run.stopReason = .repairDone ∧
    ((after (.done 300) (s [skip, later])).head 1).joinIndex = some 9 ∧ ((after (.done 300) (s [skip, later])).head 1).state = .waiting ∧
    ((after (.done 300) ahead).head 1).state = .active ∧ ((after (.done 300) ahead).head 1).joinIndex = some 8 ∧
    (after (.done 300) (s [fault, { later with fromIndex := 8 }])).repairs = [fault, { later with fromIndex := 8, sewing := true }] := by
  decide +kernel

/-- R147, R152: what the completions of the COLOUR halt at 3 and of the END halt at 9 do to the list. -/
theorem test_witness_RepairPassRuns_halts :
    let s := fun (r : HaltReason) (i b : Nat) (l : List RepairEntry) => { inState .running with
      run := { (inState .running).run with colourBlock := b },
      queue := { MoveQueue.reset with issued := [{ haltToken r with index := i }] }, repairs := l }
    let deferred : RepairEntry := ⟨3, .fault .breakFault, 1, none, none, some 0, false⟩
    (s .colour 3 0 []).takesFrame .m = true ∧ 3 + 1 < (s .colour 3 0 []).designLength ∧ 9 + 1 = (s .endRecord 9 2 []).designLength ∧
    (∃ h ∈ headNumbers, (s .colour 3 0 []).present h = true) ∧ (s .colour 3 0 []).run.pass = .main ∧
    (∀ h ∈ headNumbers, ((s .colour 3 0 []).head h).noMotion < (s .colour 3 0 []).constants.motionLimit) ∧
    (after (.done 307) (s .colour 3 0 [⟨1, .skip, 1, some 0, none, none, false⟩, deferred])).repairs =
      [⟨1, .skip, 1, some 0, some 3, none, false⟩, { deferred with fromIndex := 4, deferred := none }] ∧
    (after (.done 307) (s .endRecord 9 2 [⟨1, .skip, 8, some 2, none, none, false⟩, { deferred with deferred := some 2 }])).repairs =
      [⟨1, .skip, 8, some 2, some 9, none, false⟩] := by decide +kernel

/-- R150: a DONE that names the JOIN halt of index 2, in RUNNING and in STOPPING; head 3 joins, head 2 is barred. -/
theorem test_witness_HaltReportsThroughExec_join :
    let k : Token := { haltToken .join with lastOfRecord := false, index := 2 }
    let s := fun (st : RunState) => { repairing st k [] [⟨2, .skip, 2, some 1, none, none, false⟩, ⟨3, .fault .tension, 2, none, none, none, false⟩] with
      run := { (repairing st k [] []).run with cursor := 2, stopReason := .panel }, inhibit := [(2, 0x0008)],
      heads := [(1, { HeadRecord.reset with state := .waiting, joinIndex := some 5 }),
                (2, { HeadRecord.reset with state := .waiting, joinIndex := some 2 }),
                (3, { HeadRecord.reset with state := .waiting, joinIndex := some 2 })] }
    let t := after (.done 307) (s .running)
    (s .running).takesFrame .m = true ∧ (s .running).queue.issued = [] ++ k :: [] ∧ k.seq = 307 ∧ k.kind = .halt ∧
    (s .running).run.pass = .repair ∧ (s .running).barred 2 = true ∧
    (∀ h ∈ headNumbers, ((s .running).head h).state = .active → ((s .running).head h).noMotion < (s .running).constants.motionLimit) ∧
    t.run.state = .running ∧ t.run.cursor = 2 ∧ t.events = [] ∧ (t.head 1).state = .waiting ∧ (t.head 2).state = .heldNeedle ∧
    (t.head 3).state = .active ∧ (t.head 3).lastMotion = 2 ∧ (⟨3, .fault .tension, 2, none, none, none, true⟩ : RepairEntry) ∈ t.repairs ∧
    (after (.done 307) (s .stopping)).run.state = .paused ∧ kinds (after (.done 307) (s .stopping)) = [.runStopped] := by
  decide +kernel

/-- R152: a break of head 3 that joined at 4; the inhibit check on entering block 1. -/
theorem test_witness_RepairPassFaultAndInhibit :
    let k := stepToken 300 7
    let s := fun (l : List RepairEntry) =>
      { repairing .running k [3] l with heads := [(3, { HeadRecord.reset with state := .active, noMotion := 4, lastMotion := 6, joinIndex := some 4 })] }
    let inhibited : State := { changing with
      run := { changing.run with pass := .repair, cursor := 4, colourBlock := 1 }, inhibit := [(2, 0x0080)],
      heads := [(2, { HeadRecord.reset with state := .active })],
      repairs := [⟨2, .fault .tension, 1, none, none, none, true⟩, ⟨2, .skip, 2, some 1, none, none, true⟩] }
    (s []).takesFrame .m = true ∧ (s []).run.pass = .repair ∧ (s []).queue.issued = k :: [] ∧ k.kind = .step ∧
    k.lastOfRecord = true ∧ k.reason = none ∧ k.index + 1 < (s []).designLength ∧
    (after (.done 300) (s [⟨3, .fault .tension, 2, none, none, none, true⟩])).repairs = [⟨3, .fault .breakFault, 4, none, none, none, false⟩] ∧
    (after (.done 300) (s [⟨3, .fault .tension, 6, none, none, none, false⟩])).repairs = [⟨3, .fault .tension, 4, none, none, none, false⟩] ∧
    (after (.done 300) (s [⟨3, .skip, 5, some 1, none, none, true⟩])).repairs =
      [⟨3, .fault .breakFault, 4, none, none, none, false⟩, ⟨3, .skip, 5, some 1, none, none, false⟩] ∧
    (after (.done 300) (s [])).events.map (·.param) = [4] ∧
    inhibited.change.map (fun c => (c.deadline.isSome, c.confirm, c.target)) = some (true, [1, 3], 7) ∧
    1 ∈ headNumbers ∧ 3 ∈ headNumbers ∧
    (after .changeDeadline inhibited).repairs =
      [⟨2, .fault .tension, 1, none, none, some 1, false⟩, ⟨2, .skip, 4, some 1, none, none, false⟩] ∧
    ((after .changeDeadline inhibited).head 2).state = .heldNeedle := by decide +kernel

/-- R153: HEAD_ON takes the last entry of a REPAIR pass. -/
theorem test_witness_RepairPassFaultAndInhibit_emptied :
    let s := fun (st : RunState) => { repairing st (stepToken 300 7) [] [⟨3, .fault .breakFault, 2, none, none, none, false⟩] with
      heads := [(3, { HeadRecord.reset with state := .heldFault, cause := some (.thread .breakFault) })] }
    let w : State := { s .walking with walk := some ⟨.repair, .toIndex, 2, .back, 6, ⟨270, 220⟩, 1, 0, [], false⟩ }
    (s .paused).takesFrame .p = true ∧ ((s .paused).head 3).state = .heldFault ∧ (s .paused).barred 3 = false ∧
    (s .paused).run.cursor < (s .paused).designLength ∧ (after (.headOn 3) (s .paused)).run.state = .finished ∧
    (after (.headOn 3) (s .paused)).events.map (fun e => (e.kind, e.param)) = [(.repairDone, 0)] ∧
    (after (.headOn 3) w).walk.map (·.listEmptied) = some true ∧ (after (.headOn 3) w).run.state = .walking ∧
    kinds (after (.stop .p) (after (.headOn 3) w)) = [.walkDone, .repairDone] ∧
    (after (.stop .p) (after (.headOn 3) w)).run.state = .finished ∧
    let atL : State := { w with run := { w.run with cursor := 10 } }
    atL.designLength = 10 ∧ (after (.headOn 3) atL).repairs = [] ∧ (after (.headOn 3) atL).walk = atL.walk ∧
    (after (.stop .p) (after (.headOn 3) atL)).run.state = .paused ∧
    kinds (after (.stop .p) (after (.headOn 3) atL)) = [.walkDone] := by decide +kernel

/-! ### The head ring and the colour change -/

/-- The ring with a queue. -/
def withRequests (q : List RingRequest) (s : State) : State := { s with ring := { s.ring with requests := q } }

theorem test_witness_RingSendsOldestRequestOrPoll :
    worked.power ≠ .held ∧ worked.ring.flight = none ∧ base.ring.state = .down ∧ worked.ring.state = .full ∧
    after .ringTransactionStart base = base ∧ (∀ h ∈ headNumbers, base.present h = false) ∧
    (after .ringTransactionStart { base with ring := { base.ring with state := .split } }).ring.flight = none ∧
    (after .ringTransactionStart worked).ring.pollPointer = 1 ∧
    (after .ringTransactionStart { worked with ring := { worked.ring with pollPointer := 4 } }).ring.pollPointer = 1 ∧
    (after .ringTransactionStart { worked with ring := { worked.ring with pollPointer := 3 } }).ring.pollPointer = 4 ∧
    (after .ringTransactionStart (withRequests [⟨.lamp, 2, 1⟩, ⟨.poll, 2, 0⟩] worked)).ring.flight.map (·.request) =
      some ⟨.lamp, 2, 1⟩ ∧
    (after .ringTransactionStart (withRequests [⟨.lamp, 2, 1⟩] worked)).ring.requests = [] ∧
    (after .ringTransactionStart (withRequests [⟨.selectNeedle, 31, 7⟩] changing)).ring.flight.map
      (fun f => (f.ofChange, f.bothEnds)) = some (true, false) ∧
    let lost : State := { worked with heads := [(2, { HeadRecord.reset with state := .lost, cause := some (.loss .ring) })] }
    (after .ringTransactionStart (withRequests [⟨.poll, 2, 0⟩] lost)).ring.flight.map (·.roundRobin) = some false ∧
    (worked.head 2).state = .active ∧
    (after .ringTransactionStart (withRequests [⟨.poll, 2, 0⟩, ⟨.lamp, 3, 1⟩] worked)).ring.flight.map (·.request) = some ⟨.lamp, 3, 1⟩ ∧
    kinds (after .ringTransactionStart (withRequests [⟨.poll, 2, 0⟩]
      { lost with ring := { lost.ring with records := [] } })) = [.headLost] ∧
    let assigning := fun (p : EnumPhase) => after .ringTransactionStart
      { base with ring := { base.ring with state := .enumerating, enumeration := some ⟨p, 0, 0⟩ } }
    (assigning .broadcast).ring.flight.map (fun f => (f.request.head, f.bothEnds)) = some (31, true) ∧
    (assigning (.fromB 6)).ring.flight.map (fun f => (f.request, f.ringEnd)) = some (⟨.assign, 6, 6⟩, .b) := by decide +kernel

/-- 8.5 and chapter 9: an answer is taken on its own end alone, and acted on by its flags. -/
theorem test_witness_GoodAnswerIsActedOn :
    let s := polling 2 (inState .running)
    let moved := answerFrame 2 1 3 0x48
    let board := answerFrame 2 1 3 0x09
    let tense := answerFrame 2 1 3 0x18
    let taut : State := { s with heads := s.heads.map fun e => (e.1, { e.2 with tension := 2 }) }
    let sent := polling 3 { changing with ring := changing.ring }
    s.power ≠ .held ∧ s.change = none ∧ (s.head 2).state = .active ∧ s.run.pass = .main ∧
    (s.ring.flight.map fun f => (f.discarded, f.headLost, f.roundRobin, goodAnswer f .a moved)) = some (false, false, true, true) ∧
    after (.ringAnswer .b moved) s = s ∧ after (.ringAnswer .a (moved ^^^ 1)) s = s ∧
    ((after (.ringAnswer .a moved) s).head 2).needle = 3 ∧ (after (.ringAnswer .a moved) s).events = [] ∧
    ((after (.ringAnswer .a (answerFrame 2 1 3 0x28)) s).events.map (·.kind)) = [.bobbinLow] ∧
    ((after (.ringAnswer .a board) s).head 2).state = .lost ∧ (after (.ringAnswer .a board) s).run.state = .stopping ∧
    (after (.ringAnswer .a board) s).events.map (·.param) = [2] ∧
    ((after (.ringAnswer .a tense) s).head 2).tension = 1 ∧
    ((after (.ringAnswer .a tense) taut).head 2).state = .heldFault ∧
    (after (.ringAnswer .a tense) taut).repairs.map (fun e => (e.head, e.kind)) = [(2, .fault .tension)] ∧
    (sent.ring.flight.map (·.afterSelection)) = some true ∧
    (after (.ringAnswer .a (answerFrame 3 1 7 0x08)) sent).change.map (·.confirm) = some [1] ∧
    (after (.ringAnswer .a (answerFrame 3 1 7 0)) sent).change = sent.change ∧
    let last : State := { sent with change := sent.change.map fun c => { c with confirm := [3] } }
    (after (.ringAnswer .a (answerFrame 3 1 7 0x08)) last).run.needle = 7 ∧
    (after (.ringAnswer .a (answerFrame 3 1 7 0x08)) last).run.state = .running := by decide +kernel

/-- A POLL in flight to head 2, LOST with cause RING, that is no round-robin POLL: a recovery POLL. -/
def recovering (st : RunState) : State :=
  { inState st with
    heads := [(2, { HeadRecord.reset with state := .lost, cause := some (.loss .ring) })],
    ring := { (inState st).ring with flight := some (transactionOf ⟨.poll, 2, 0⟩ .a false false false false) } }

theorem test_witness_RecoveryPollsAndStaleOutcomes :
    let good := answerFrame 2 1 3 0x08
    let board := answerFrame 2 1 3 0x09
    let s := recovering .paused
    let marked := fun (lost gone : Bool) => { s with ring := { s.ring with
      flight := s.ring.flight.map fun f => { f with headLost := lost, discarded := gone } } }
    s.power ≠ .held ∧ (s.ring.flight.map fun f => (f.request.head, f.roundRobin, f.headLost, f.discarded, goodAnswer f .a good)) =
      some (2, false, false, false, true) ∧ s.run.pass = .main ∧
    ((after (.ringAnswer .a good) s).head 2).state = .active ∧
    ((after (.ringAnswer .a good) { s with repairs := [⟨2, .fault .tension, 1, none, none, none, false⟩] }).head 2).cause =
      some (.thread .tension) ∧
    ((after (.ringAnswer .a good) { s with inhibit := [(2, 0x0008)] }).head 2).state = .heldNeedle ∧
    ((after (.ringAnswer .a good) (recovering .running)).head 2).state = .heldOperator ∧
    ((after (.ringAnswer .a board) s).head 2).cause = some (.loss .board) ∧
    (after (.ringAnswer .a board) s).events.map (fun e => (e.kind, e.param)) = [(.headLost, 2)] ∧
    (after .ringTimeout s).events.map (fun e => (e.kind, e.param)) = [(.headLost, 0)] ∧
    (after .ringTimeout (marked true false)).events = [] ∧ (after (.ringAnswer .a board) (marked false true)).events = [] ∧
    (after (.ringAnswer .a good) (marked true false)).ring = { s.ring with flight := none } ∧
    (after .broadcastSent { s with ring := { s.ring with flight := some { transactionOf ⟨.assign, 31, 0⟩ .a true false false false with discarded := true } } }).ring =
      { s.ring with flight := none } := by decide +kernel

/-- R110 to R112 and R109: the change of `changing` to needle 7 given up for heads 1 and 3. -/
theorem test_witness_InhibitCheckAndResume :
    let act := fun (a : ChangeAction) => { changing with
      change := changing.change.map (fun c => { c with action := a }), inhibit := [(2, 0x0080)] }
    let full : State := { act .auto with repairs := (List.range 24).map fun k => ⟨20, .skip, k, some 9, some 90, none, false⟩ }
    let none_ : State := { act .auto with inhibit := [(2, 0x0080), (4, 0x0080)] }
    let free : State := { act .auto with heads := [(4, { HeadRecord.reset with state := .heldNeedle })] }
    let board := answerFrame 3 1 7 0x01
    (act .auto).power ≠ .held ∧ (act .auto).run.pass = .main ∧ (act .auto).run.state = .changing ∧
    (act .auto).change.map (fun c => (c.deadline.isSome, c.confirm)) = some (true, [1, 3]) ∧
    ((after .changeDeadline (act .auto)).head 2).state = .heldNeedle ∧ ((after .changeDeadline (act .auto)).head 4).state = .active ∧
    (after .changeDeadline (act .auto)).repairs = [⟨2, .skip, 0, some 0, none, none, false⟩] ∧
    (after .changeDeadline (act .resume)).run.state = .running ∧ (after .changeDeadline (act .resume)).seq.ramp = 5 ∧
    (after .changeDeadline (act .stop)).run.stopReason = .colourStop ∧
    (after .changeDeadline (act .stop)).events.map (·.param) = [1, 1, 7, 7] ∧
    kinds (after .changeDeadline (act .pause)) = [.headLost, .headLost, .runStopped, .changeDone] ∧
    (after .changeDeadline full).run.stopReason = .repairListFull ∧ (after .changeDeadline full).repairs = full.repairs ∧
    (after .changeDeadline full).events.map (fun e => (e.kind, e.head)) =
      [(.headLost, 1), (.headLost, 3), (.repairListFull, 2), (.changeDone, 0)] ∧
    (after .changeDeadline none_).run.stopReason = .noHeads ∧ (after .changeDeadline none_).run.state = .paused ∧
    ((after .changeDeadline free).head 4).state = .active ∧ (after .changeDeadline free).run.state = .running ∧
    (after (.ringAnswer .a board) (polling 3 changing)).change.map (·.confirm) = some [1] ∧
    (after (.ringAnswer .a board) (polling 3 { changing with change := changing.change.map fun c => { c with confirm := [3] } })).run.needle = 7 := by
  decide +kernel

/-- The ring enumerating, with an ASSIGN in flight. -/
def assigning (p : EnumPhase) (a b k : Nat) (e : RingEnd) : State :=
  { worked with
    heads := [], ring := { HeadRing.reset with
      state := .enumerating, enumeration := some ⟨p, a, b⟩,
      flight := some (transactionOf ⟨.assign, k, k⟩ e false false false false) } }

/-- 8.8: the enumeration of a ring from its two ends. -/
theorem test_witness_RingStartBeginsEnumeration_ends :
    (after (.ringAnswer .a (answerFrame 3 0 0 0)) (assigning (.fromA 3) 2 0 3 .a)).ring.enumeration = some ⟨.fromA 4, 3, 0⟩ ∧
    (after (.ringAnswer .a (answerFrame 4 0 0 0)) (assigning (.fromA 4) 3 0 4 .a)).ring.state = .full ∧
    ((after (.ringAnswer .a (answerFrame 4 0 0 0)) (assigning (.fromA 4) 3 0 4 .a)).head 4).state = .active ∧
    ((after (.ringAnswer .a (answerFrame 4 0 0 0)) (assigning (.fromA 4) 3 0 4 .a)).head 5).state = .absent ∧
    (after .ringTimeout (assigning (.fromA 3) 2 0 3 .a)).ring.enumeration = some ⟨.fromB 4, 2, 0⟩ ∧
    (after (.ringAnswer .b (answerFrame 4 0 0 0)) (assigning (.fromB 4) 2 0 4 .b)).ring.enumeration = some ⟨.fromB 3, 2, 1⟩ ∧
    (after (.ringAnswer .b (answerFrame 3 0 0 0)) (assigning (.fromB 3) 2 1 3 .b)).ring.state = .split ∧
    ((after (.ringAnswer .b (answerFrame 3 0 0 0)) (assigning (.fromB 3) 2 1 3 .b)).events.map (·.param)) = [0x0202] ∧
    let missed := after .ringTimeout (assigning (.fromB 3) 2 1 3 .b)
    missed.ring.state = .split ∧ (missed.head 3).cause = some (.loss .absentAtStart) ∧ (missed.head 4).state = .active ∧
    (missed.head 5).state = .absent ∧ (missed.ringRecord 4).path = some .b ∧ (missed.ringRecord 2).path = some .a ∧
    missed.ring.requests.take 2 = [⟨.presser, 1, 0⟩, ⟨.lamp, 1, 1⟩] ∧ missed.ring.requests.length = 6 ∧
    missed.events.map (·.param) = [0x0201] := by decide +kernel

/-- 8.8: the third miss of head 3 switches its path to end B on a FULL ring, and gives it up after that. -/
theorem test_witness_MissIsCountedAndThirdActs :
    let s := polling 3 (inState .running)
    let missed := fun (n : Nat) (sw : Bool) => { s with ring := { s.ring with records := [(3, ⟨some .a, sw, n⟩)] } }
    let lamp : State := { s with ring := { s.ring with
      flight := some (transactionOf ⟨.lamp, 3, 1⟩ .a false false false false), requests := [⟨.poll, 3, 0⟩] } }
    s.power ≠ .held ∧ s.change = none ∧ s.ring.flight.isSome = true ∧ s.ring.state = .full ∧
    (after .ringTimeout s).ringRecord 3 = ⟨some .a, false, 1⟩ ∧ (after .ringTimeout (missed 1 false)).ringRecord 3 = ⟨some .a, false, 2⟩ ∧
    (after .ringTimeout lamp).ring.requests = [⟨.poll, 3, 0⟩, ⟨.lamp, 3, 1⟩] ∧
    (after .ringTimeout (missed 2 false)).ringRecord 3 = ⟨some .b, true, 0⟩ ∧
    kinds (after .ringTimeout (missed 2 false)) = [.ringPath] ∧ ((after .ringTimeout (missed 2 false)).head 3).state = .active ∧
    ((after .ringTimeout (missed 2 true)).head 3).state = .lost ∧ kinds (after .ringTimeout (missed 2 true)) = [.headLost] ∧
    (after .ringTimeout (missed 2 true)).run.state = .stopping ∧ (after .ringTimeout (missed 2 true)).run.stopReason = .headLost ∧
    let during := fun (l : List Nat) => { polling 3 changing with
      ring := { (missed 2 true).ring with state := .split }, change := changing.change.map fun c => { c with confirm := l } }
    (during [1, 3]).run.state = .changing ∧ (after .ringTimeout (during [1, 3])).change.map (·.confirm) = some [1] ∧
    kinds (after .ringTimeout (during [1, 3])) = [.headLost] ∧ (after .ringTimeout (during [3])).change = none ∧
    (after .ringTimeout (during [3])).run.needle = 7 ∧ ((after .ringTimeout (during [3])).head 3).state = .lost ∧
    (after .ringTimeout (during [3])).run.state = .running := by decide +kernel

theorem test_witness_SelectionSentThenDeadline :
    let selecting : State := { changing with
      change := changing.change.map fun c => { c with selectionSent := false, deadline := none },
      ring := { changing.ring with flight := some (transactionOf ⟨.selectNeedle, 31, 7⟩ .a false false false true) } }
    let broadcast : State := { base with ring := { base.ring with
      state := .enumerating, enumeration := some ⟨.broadcast, 0, 0⟩,
      flight := some (transactionOf ⟨.assign, 31, 0⟩ .a true false false false) } }
    selecting.power ≠ .held ∧ (after .broadcastSent selecting).change.map (fun c => (c.selectionSent, c.deadline)) =
      some (true, some 800) ∧
    (after .broadcastSent broadcast).ring.enumeration = some ⟨.fromA 1, 0, 0⟩ ∧
    changing.run.state = .changing ∧ changing.change.map (fun c => (c.deadline.isSome, c.target)) = some (true, 7) ∧
    let barred : State := { changing with inhibit := [(2, 0x0080)] }
    (after .changeDeadline barred).run.needle = 7 ∧ (after .changeDeadline barred).run.state = .running ∧
    ((after .changeDeadline barred).head 1).cause = some (.loss .needle) ∧
    ((after .changeDeadline barred).head 2).state = .heldNeedle ∧ ((after .changeDeadline barred).head 4).state = .active ∧
    kinds (after .changeDeadline barred) = [.headLost, .headLost, .changeDone] := by decide +kernel

theorem test_witness_RingStartBeginsEnumeration : worked.takesFrame .p = true ∧ refusedWith .ringStart armedState .p .state = true ∧
    refusedWith .ringStart (assigning (.fromA 1) 0 0 1 .a) .p .busy = true ∧
    (after .ringStart (polling 2 worked)).ring.flight.map (·.discarded) = some true ∧
    ((after .ringStart worked).head 4).state = .absent ∧ (after .ringStart worked).ring.state = .enumerating ∧
    (after .ringStart { worked with repairs := workedRepairs }).repairs = [] := by decide +kernel

/-! ### Heads -/

theorem test_witness_SetInhibitHoldsBarredHead : worked.takesFrame .p = true ∧
    refusedWith (.setInhibit 0 8) worked .p .range = true ∧ refusedWith (.setInhibit 25 8) worked .p .range = true ∧
    refusedWith (.setInhibit 1 1) worked .p .range = true ∧
    let s := inState .running
    ((after (.setInhibit 2 8) s).head 2).state = .heldNeedle ∧
    (after (.setInhibit 2 8) s).repairs = [⟨2, .skip, 0, some 0, none, none, false⟩] ∧
    (after (.setInhibit 2 8) s).ring.requests = [⟨.presser, 2, 1⟩, ⟨.lamp, 2, 2⟩] ∧
    (after (.setInhibit 2 8) changing).repairs = [] ∧ ((after (.setInhibit 2 16) s).head 2).state = .active ∧
    (after (.setInhibit 24 32768) s).inhibitRow 24 = 32768 ∧
    let at8 : State := { s with run := { s.run with cursor := 8, colourBlock := 2 } }
    (after (.setInhibit 2 8) { at8 with repairs := [⟨2, .skip, 5, some 1, some 7, none, false⟩] }).repairs =
      [⟨2, .skip, 5, some 2, none, none, false⟩] ∧
    (after (.setInhibit 2 8) { at8 with repairs := [⟨2, .skip, 9, some 2, none, none, false⟩] }).repairs =
      [⟨2, .skip, 8, some 2, none, none, false⟩] ∧
    kinds (after (.setInhibit 2 8) { at8 with repairs := (List.range 24).map fun k => ⟨20, .skip, k, some 9, some 90, none, false⟩ }) =
      [.repairListFull] := by decide +kernel

/-- R116: in WALKING the entry is made at the end of the walk; in FINISHED there is none; in a REPAIR pass the marks go. -/
theorem test_witness_SetInhibitHoldsBarredHead_rows :
    let s := inState .walking
    let w : State := { s with walk := some ⟨.walk, .toIndex, 2, .back, 6, ⟨270, 220⟩, 1, 0, [], false⟩ }
    let held := after (.setInhibit 2 8) w
    let mine : List RepairEntry := [⟨2, .fault .tension, 1, none, none, none, true⟩]
    let pass : State := { inState .changing with run := { (inState .changing).run with pass := .repair, cursor := 4 }, repairs := mine }
    w.takesFrame .p = true ∧ (w.head 2).state = .active ∧ held.repairs = [] ∧ held.walk.map (·.deferredSkips) = some [2] ∧
    (held.head 2).state = .heldNeedle ∧ held.takesFrame .m = true ∧
    (after (.stop .m) held).repairs = [⟨2, .skip, 6, some 1, none, none, false⟩] ∧ kinds (after (.stop .m) held) = [.walkDone] ∧
    (after (.setInhibit 2 8) (inState .finished)).repairs = [] ∧
    ((after (.setInhibit 2 8) (inState .fault)).head 2).state = .heldNeedle ∧
    (after (.setInhibit 2 8) pass).repairs = [⟨2, .fault .tension, 4, none, none, none, false⟩] := by decide +kernel

theorem test_witness_HeadOffAndOn : worked.takesFrame .p = true ∧ refusedWith (.headOff 0) worked .p .range = true ∧
    refusedWith (.headOff 25) worked .p .range = true ∧ refusedWith (.headOff 24) worked .p .state = true ∧
    ((after (.headOff 4) worked).head 4).state = .heldOperator ∧ refusedWith (.headOn 0) worked .p .range = true ∧
    refusedWith (.headOn 25) worked .p .range = true ∧ refusedWith (.headOn 1) (inState .running) .p .state = true ∧
    refusedWith (.headOn 24) worked .p .absent = true ∧ refusedWith (.headOn 1) worked .p .ok = true ∧
    let with1 := fun (r : HeadState) => { inState .paused with heads := [(1, { HeadRecord.reset with state := r })] }
    refusedWith (.headOn 1) (with1 .resting) .p .state = true ∧ refusedWith (.headOn 1) (with1 .waiting) .p .state = true ∧
    (after (.headOn 1) (with1 .lost)).ring.requests = [⟨.poll, 1, 0⟩] ∧
    refusedWith (.headOn 1) { with1 .heldNeedle with inhibit := [(1, 8)] } .p .inhibited = true ∧
    ((after (.headOn 1) (with1 .heldOperator)).head 1).state = .active ∧
    (after (.headOn 1) { with1 .heldFault with repairs := [⟨1, .fault .breakFault, 2, none, none, none, false⟩] }).repairs = [] := by
  decide +kernel

/-- R141: the head switch by head state and run state. -/
theorem test_witness_HeadOffAndOn_switch :
    let s := fun (st : RunState) (hs : HeadState) =>
      polling 2 { inState st with heads := [(2, { HeadRecord.reset with state := hs })] }
    let press := answerFrame 2 1 3 0x0A
    let done := fun (st : RunState) (hs : HeadState) => let t := after (.ringAnswer .a press) (s st hs)
      ((t.head 2).state, t.events.map fun e => (e.kind, e.head, e.param))
    answerHeadSwitch press = true ∧ answerBoardFault press = false ∧ answerTensionHigh press = false ∧
    ((s .running .active).ring.flight.map fun f => goodAnswer f .a press) = some true ∧
    done .running .active = (.heldOperator, [(.headSwitch, 2, 0)]) ∧ done .paused .heldOperator = (.active, [(.headSwitch, 2, 1)]) ∧
    done .running .heldOperator = (.heldOperator, [(.headSwitch, 2, 2)]) ∧
    done .paused .heldFault = (.heldFault, [(.headSwitch, 2, 2)]) := by decide +kernel

/-! ### Events, the class table, the time tag, the constants -/

/-- 64 entries, the oldest a RUN_STOPPED and the others MEMORY_CORRECTED (11.8). -/
def fullEvents : State :=
  { base with events := ⟨.runStopped, 0, 0, 0, 0, false, none⟩ ::
      List.replicate 63 ⟨.memoryCorrected, 0, 0, 0, 0, false, none⟩ }

/-- 11.8: the overflow discards the RUN_STOPPED and marks the entry that becomes oldest. -/
theorem test_witness_EventsAppendedAndRead :
    let t := fullEvents.post .bobbinLow 1 0
    (base.classOf 3).log = true ∧ (base.post .bobbinLow 1 0).events.length = 1 ∧ 64 ≤ fullEvents.events.length ∧
    t.events.length = 64 ∧ (t.events.map (·.gap)).take 2 = [true, false] ∧ (t.events.getLast?.map (·.head)) = some 1 ∧
    let quiet := after (.setClass 17 false false) t
    (quiet.classOf 17).log = false ∧ (quiet.post .memoryCorrected 0 0).events = quiet.events ∧ quiet.takesFrame .p = true ∧
    refusedWith (.readEvents 0) quiet .p .range = true ∧ refusedWith (.readEvents 5) quiet .p .range = true ∧
    (after (.readEvents 4) quiet).events.length = 60 ∧
    (answer .p (after (.readEvents 4) quiet)).map (fun r => r.2.take 4) = some [4, 60, 17, 128] ∧
    answer .p (after (.readEvents 4) base) = some (.ok, [0, 0]) := by decide +kernel

theorem test_witness_ClassTableTimeTagAndAttention : base.takesFrame .p = true ∧ base.power ≠ .held ∧
    refusedWith (.setClass 0 true true) base .p .range = true ∧ refusedWith (.setClass 25 true true) base .p .range = true ∧
    (after (.setClass 24 true true) base).classOf 24 = ⟨true, true⟩ ∧ (base.classOf 24).attend = false ∧
    refusedWith (.setTime 5 3) base .p .range = true ∧ (after (.setTime 65535 16) base).timeTag = ⟨65535, 16⟩ ∧
    (after .timeTagTick base).timeTag.value = 1 ∧
    (after .timeTagTick (after (.setTime 65535 16) base)).timeTag.value = 0 ∧
    (after .timeTagTick (after (.setTime 65535 16) base)).events.map (fun e => (e.kind, e.time, e.param)) =
      [(.timeTagWrap, 0, 16)] ∧
    fullEvents.attentionP = true ∧ ({ base with events := fullEvents.events.drop 33 } : State).attentionP = false ∧
    ({ base with events := fullEvents.events.drop 32 } : State).attentionP = true ∧
    (moving 0 15).attentionM = true ∧ (moving 0 16).attentionM = false := by decide +kernel

/-- A constants record at the ends of its ranges (R171). -/
def edgeConstants : ConstantsFrame :=
  { nHeads := 24, needles := 1, xmin := 59999, xmax := 60000, ymin := 0, ymax := 60000, maxStep := 800,
    bands := [(0, 1209), (1, 1201), (2, 99), (3, 105), (4, 400), (5, 400), (6, 400), (7, 400)],
    startSpeed := 100, ramp := 0, motionLimit := 1, tensionLimit := 15, backstep := 255, faultPolicy := 1, trimAtChange := 0,
    changeTime := 100 }

theorem test_witness_SetConstantsWritesWholeRecord : base.takesFrame .p = true ∧
    refusedWith (.setConstants edgeConstants) armedState .p .state = true ∧
    refusedWith (.setConstants edgeConstants) (assigning (.fromA 1) 0 0 1 .a) .p .busy = true ∧
    refusedWith (.setConstants { edgeConstants with bands := (7, 400) :: edgeConstants.bands.drop 1 }) base .p .invalid = true ∧
    refusedWith (.setConstants { edgeConstants with xmin := 60000 }) base .p .invalid = true ∧
    refusedWith (.setConstants { edgeConstants with startSpeed := 1201 }) base .p .invalid = true ∧
    (after (.setConstants edgeConstants) base).constants.bands.map (·.2) = [1200, 1200, 100, 100, 400, 400, 400, 400] ∧
    (after (.setConstants edgeConstants) base).constants.faultPolicy = .stopAll ∧
    ((answer .p (after (.setConstants edgeConstants) base)).map (·.2.length)) = some 54 ∧
    ((after (.setConstants edgeConstants) { base with heads := [(3, { HeadRecord.reset with tension := 2 })] }).head 3).tension = 0 := by
  decide +kernel

/-! ### The laws of the state -/

/-- The hypotheses of the law of the FAULT entries, on a run with one and a step of it. -/
theorem test_witness_QueuesKeepTheirBounds :
    let s : State := { inState .paused with
      pending := [.headOn 3], heads := [(3, { HeadRecord.reset with state := .heldFault, cause := some (.thread .breakFault) })],
      repairs := [⟨3, .fault .breakFault, 2, none, none, none, false⟩, ⟨1, .skip, 5, some 1, some 7, none, false⟩] }
    s.eventsFit ∧ s.queueFits ∧ s.repairsOrdered ∧ s.operationsMatch ∧ s.faultsSingle ∧
    (match step s with | .next t => decide (t.repairs.length = 1) | _ => false) = true := by
  refine ⟨by unfold State.eventsFit; decide +kernel, by unfold State.queueFits; decide +kernel,
    by unfold State.repairsOrdered; decide +kernel, by unfold State.operationsMatch; decide +kernel, ?_, by decide +kernel⟩
  refine ⟨?_, by decide +kernel, by decide +kernel, by decide +kernel, (fun w h => by cases h), by decide +kernel,
    (fun f h => by cases h), (fun h => by cases h)⟩
  intro h
  by_cases g : 3 = h
  · subst g; decide +kernel
  · simp [g, RepairEntry.isFault]

/-- The hypotheses of the head laws and of the match of operations, on the armed design with a START that changes needles. -/
def startingChange : State := { armedState with pending := [.start] }

theorem test_witness_HeadLawsStand : startingChange.noBarredActive ∧ startingChange.countsBounded ∧
    (match step startingChange with | .next t => decide (t.run.state = .changing) | _ => false) = true := by
  refine ⟨?_, ?_, by decide +kernel⟩
  · unfold State.noBarredActive; decide +kernel
  · unfold State.countsBounded Constants.inRange; decide +kernel

theorem test_witness_ArmedSlotAndOperationsMatch : startingChange.armedOnce ∧ startingChange.operationsMatch ∧
    startingChange.run.armedSlot = some 4 ∧ (startingChange.slot 4).armed = true ∧ ∃ t, step startingChange = .next t := by
  refine ⟨?_, by unfold State.operationsMatch; decide +kernel, by decide +kernel, by decide +kernel, ⟨_, rfl⟩⟩
  have h : ∀ k, startingChange.slot k = if 4 = k then armedState.slot 4 else SlotRecord.reset := by
    intro k; by_cases g : 4 = k
    · subst g; decide +kernel
    · simp [startingChange, State.slot, g, armedState, Table.get]
  have a : (armedState.slot 4).armed = true ∧ (armedState.slot 4).state = .ready ∧ startingChange.run.armedSlot = some 4 := by
    decide +kernel
  refine ⟨fun k => ?_, fun k => ?_, by decide +kernel, (fun c g => by cases g)⟩
  · rw [h, a.2.2]; split <;> simp_all [SlotRecord.reset]
  · rw [h]; split <;> simp_all [SlotRecord.reset]

theorem test_witness_StoreAndPoolStayAccounted : State.reset.storeCanonical ∧
    (State.reset.pool ++ State.reset.heldBlocks).length = 512 ∧ State.reset.heldBlocks = [] ∧
    (match step { State.reset with pending := [.resetRelease] } with | .next t => decide (t.power = .waiting) | _ => false) = true := by
  refine ⟨rfl, ?_⟩
  decide +kernel

theorem test_witness_TokensStayLawful :
    let s : State := { moving 2 3 with pending := [.fetchMoves 2] }
    s.operationsMatch ∧ s.constants.inRange ∧ (∀ t ∈ s.queue.issued ++ s.queue.prepared, t.lawful s.constants.maxStep) ∧
    s.seq.split = none ∧ s.run.state = .running ∧ ∃ t, step s = .next t := by
  refine ⟨by unfold State.operationsMatch; decide +kernel, by unfold Constants.inRange; decide +kernel, ?_, rfl, rfl, ⟨_, rfl⟩⟩
  intro t ht
  have h : ∀ t ∈ (moving 2 3).queue.issued ++ (moving 2 3).queue.prepared,
      t.kind = .step ∧ t.reason = none ∧ t.mx = 40 ∧ t.my = 0 ∧ t.ceiling = some 600 := by decide +kernel
  obtain ⟨a, b, c, d, e⟩ := h t ht
  unfold Token.lawful
  rw [a]
  exact ⟨b, by rw [c]; decide, by rw [d]; decide, 600, e, by decide, by decide, by decide⟩

end Sys2Proof.Tests
end

section
/-! PROOF SUPPORT. Relations between the state before and after an operation: the footing it leaves alone, the design it
keeps, the mode it keeps; and the laws of the store, the slots and the operations that follow from each. -/

namespace Sys2Proof.Machine

open Sys2Proof

variable (s : State)

/-! ### The footing: what the four laws speak of -/

/-- The fields that the laws of the store, the pool, the armed slot and the operations in progress speak of. -/
def State.footing (s : State) : Table Chunk × List Nat × Table SlotRecord × Option CloseScan × Option Nat × RunState ×
    Bool × Bool × Bool :=
  (s.store, s.pool, s.slots, s.scan, s.run.armedSlot, s.run.state, s.change.isSome, s.walk.isSome, s.trace.isSome)

@[simp] theorem State.footing_withPower (v : Power) : (s.withPower v).footing = s.footing := rfl
@[simp] theorem State.footing_withPortP (v : PortState) : (s.withPortP v).footing = s.footing := rfl
@[simp] theorem State.footing_withPortM (v : PortState) : (s.withPortM v).footing = s.footing := rfl
@[simp] theorem State.footing_withConstants (v : Constants) : (s.withConstants v).footing = s.footing := rfl
@[simp] theorem State.footing_withFaultRecord (v : AccessFault) : (s.withFaultRecord v).footing = s.footing := rfl
@[simp] theorem State.footing_withArbiter (v : Arbiter) : (s.withArbiter v).footing = s.footing := rfl
@[simp] theorem State.footing_withSeq (v : Sequencer) : (s.withSeq v).footing = s.footing := rfl
@[simp] theorem State.footing_withQueue (v : MoveQueue) : (s.withQueue v).footing = s.footing := rfl
@[simp] theorem State.footing_withRing (v : HeadRing) : (s.withRing v).footing = s.footing := rfl
@[simp] theorem State.footing_withRepairs (v : List RepairEntry) : (s.withRepairs v).footing = s.footing := rfl
@[simp] theorem State.footing_withEvents (v : List EventEntry) : (s.withEvents v).footing = s.footing := rfl
@[simp] theorem State.footing_withTimeTag (v : TimeTag) : (s.withTimeTag v).footing = s.footing := rfl
@[simp] theorem State.footing_withPending (v : List Instr) : (s.withPending v).footing = s.footing := rfl
@[simp] theorem State.footing_putHead (h : Nat) (r : HeadRecord) : (s.putHead h r).footing = s.footing := rfl
@[simp] theorem State.footing_putInhibitRow (h : Nat) (row : BitVec 16) : (s.putInhibitRow h row).footing = s.footing := rfl
@[simp] theorem State.footing_putRingRecord (h : Nat) (r : RingRecord) : (s.putRingRecord h r).footing = s.footing := rfl
@[simp] theorem State.footing_putClass (k : Nat) (f : ClassFlags) : (s.putClass k f).footing = s.footing := rfl
@[simp] theorem State.footing_setStopReason (r : StopReason) : (s.setStopReason r).footing = s.footing := rfl
@[simp] theorem State.footing_setJoin (h : Nat) (j : Option Nat) : (s.setJoin h j).footing = s.footing := rfl
@[simp] theorem State.footing_endAccess (r : Requester) : (s.endAccess r).footing = s.footing := rfl
@[simp] theorem State.footing_placeToken (t : Token) : (s.placeToken t).footing = s.footing := rfl
@[simp] theorem State.footing_issue (n : Nat) : (s.issue n).footing = s.footing := rfl
@[simp] theorem State.footing_fly (t : Transaction) : (s.fly t).footing = s.footing := rfl
@[simp] theorem State.footing_setEnumeration (e : Enumeration) : (s.setEnumeration e).footing = s.footing := rfl

@[simp] theorem State.putHead_run (h : Nat) (r : HeadRecord) : (s.putHead h r).run = s.run := rfl
@[simp] theorem State.putHead_change (h : Nat) (r : HeadRecord) : (s.putHead h r).change = s.change := rfl

variable {s} in
theorem State.footing_withRun {v : RunRecord} (a : v.armedSlot = s.run.armedSlot) (b : v.state = s.run.state) :
    (s.withRun v).footing = s.footing := by
  simp [State.footing, a, b]

variable {s} in
theorem State.footing_withChange {v : Option ChangeRecord} (h : v.isSome = s.change.isSome) :
    (s.withChange v).footing = s.footing := by
  simp [State.footing, h]

variable {s} in
theorem State.footing_withWalk {v : Option WalkRecord} (h : v.isSome = s.walk.isSome) :
    (s.withWalk v).footing = s.footing := by
  simp [State.footing, h]

/-- What leaves the footing alone at each element of a list leaves it alone over the whole of it. -/
theorem State.footing_foldl {α : Type} {f : State → α → State} (h : ∀ t x, (f t x).footing = t.footing) (l : List α) :
    (l.foldl f s).footing = s.footing := by
  induction l generalizing s with
  | nil => rfl
  | cons x rest ih => exact (ih (f s x)).trans (h s x)

/-! ### Ports, replies, events and the arbiter leave the footing -/

@[simp] theorem State.footing_putPort (port : Port) (v : PortState) : (s.putPort port v).footing = s.footing := by
  cases port <;> rfl

@[simp] theorem State.footing_reply (port : Port) (code : ReplyCode) (payload : List Byte) :
    (s.reply port code payload).footing = s.footing := s.footing_putPort _ _

@[simp] theorem State.footing_refuse (port : Port) (code : ReplyCode) : (s.refuse port code).footing = s.footing :=
  s.footing_reply _ _ _

@[simp] theorem State.footing_reportReply (n : Nat) : (s.reportReply n).footing = s.footing := s.footing_reply _ _ _

@[simp] theorem State.footing_closeFrame (port : Port) : (s.closeFrame port).footing = s.footing := s.footing_putPort _ _

@[simp] theorem State.footing_loseReply (port : Port) : (s.loseReply port).footing = s.footing := by
  obtain ⟨a, e⟩ := s.loseReply_eq port
  rw [e]; rfl

@[simp] theorem State.footing_postTarget (k : EventKind) (head : Nat) (param : BitVec 32) (target : Option Point) :
    (s.postTarget k head param target).footing = s.footing := by
  obtain ⟨q, e⟩ := s.postTarget_eq k head param target
  rw [e]; rfl

@[simp] theorem State.footing_post (k : EventKind) (head : Nat) (param : BitVec 32) :
    (s.post k head param).footing = s.footing := s.footing_postTarget _ _ _ _

@[simp] theorem State.footing_postStopped : s.postStopped.footing = s.footing := s.footing_post _ _ _
@[simp] theorem State.footing_postRepairDone (n : Nat) : (s.postRepairDone n).footing = s.footing := s.footing_post _ _ _
@[simp] theorem State.footing_recoveryMiss (h : Nat) : (s.recoveryMiss h).footing = s.footing := s.footing_post _ _ _

@[simp] theorem State.footing_recordFault (source : FaultSource) (command : Option FaultCommand) (slot index : Nat)
    (kinds : FaultKinds) : (s.recordFault source command slot index kinds).footing = s.footing := by
  obtain ⟨f, e, -⟩ := s.recordFault_eq source command slot index kinds
  rw [e]; rfl

@[simp] theorem State.footing_askRead (r : Requester) (x : StoreRead) : (s.askRead r x).footing = s.footing := by
  obtain ⟨a, e⟩ := s.askRead_eq r x
  rw [e]; rfl

@[simp] theorem State.footing_dropRead (r : Requester) : (s.dropRead r).footing = s.footing := by
  obtain ⟨a, e⟩ := s.dropRead_eq r
  rw [e]; rfl


@[simp] theorem State.footing_endPortAccess : s.endPortAccess.footing = s.footing := by
  unfold State.endPortAccess
  split <;> rfl

@[simp] theorem State.footing_endPause (r : Requester) : (s.endPause r).footing = s.footing := by
  unfold State.endPause
  split
  · dsimp only; split <;> simp
  · rfl

@[simp] theorem State.footing_rollback : s.rollback.footing = s.footing := by
  obtain ⟨a, f, e⟩ := s.rollback_eq
  rw [e]; rfl

/-! ### Heads, the ring queue and the Repair List leave the footing -/

/-- What changes the heads, the request queue and the Repair List alone leaves the footing. -/
theorem State.OnlyHeads.footing {t : State} (h : s.OnlyHeads t) : t.footing = s.footing := by
  have e : t.blankHeads.footing = s.blankHeads.footing := congrArg State.footing h
  exact e

@[simp] theorem State.footing_offer (r : RingRequest) : (s.offer r).footing = s.footing := by
  obtain ⟨q, e⟩ := s.offer_eq r
  rw [e]; rfl

@[simp] theorem State.footing_setRepairs (l : List RepairEntry) : (s.setRepairs l).footing = s.footing :=
  (State.OnlyHeads.setRepairs s l).footing

@[simp] theorem State.footing_setHeadState (h : Nat) (st : HeadState) (cause : Option HeadCause) :
    (s.setHeadState h st cause).footing = s.footing := (State.OnlyHeads.setHeadState s h st cause).footing

@[simp] theorem State.footing_changeHead (h : Nat) (st : HeadState) (cause : Option HeadCause) :
    (s.changeHead h st cause).footing = s.footing := (State.OnlyHeads.changeHead s h st cause).footing

@[simp] theorem State.footing_skipEntry (h : Nat) : (s.skipEntry h).1.footing = s.footing :=
  (State.OnlyHeads.skipEntry s h).footing

@[simp] theorem State.footing_placeHead (h : Nat) : (s.placeHead h).footing = s.footing :=
  (State.OnlyHeads.placeHead s h).footing

@[simp] theorem State.footing_returnHead (h : Nat) : (s.returnHead h).footing = s.footing :=
  (State.OnlyHeads.returnHead s h).footing

@[simp] theorem State.footing_inhibitCheck (hs : List Nat) : (s.inhibitCheck hs).1.footing = s.footing :=
  (State.OnlyHeads.inhibitCheck s hs).footing

@[simp] theorem State.footing_skipOrPost (h : Nat) : (s.skipOrPost h).footing = s.footing := by
  have g := s.footing_skipEntry h
  unfold State.skipOrPost
  split <;> (next e => rw [e] at g; simpa using g)

@[simp] theorem State.footing_markEntries (h c : Nat) : (s.markEntries h c).footing = s.footing := s.footing_setRepairs _

@[simp] theorem State.footing_dropFault (h : Nat) : (s.dropFault h).footing = s.footing := s.footing_setRepairs _

@[simp] theorem State.footing_placeAll : s.placeAll.footing = s.footing :=
  s.footing_foldl (fun t h => by split <;> simp) _

@[simp] theorem State.footing_faultAction (h : Nat) (cause : ThreadFault) : (s.faultAction h cause).footing = s.footing := by
  obtain ⟨r, q, l, o, v, e, -⟩ := s.faultAction_eq h cause
  rw [e, State.footing_withEvents, State.footing_withRun] <;> simp

@[simp] theorem State.footing_loseHead (h : Nat) (c : LossCause) : (s.loseHead h c).footing = s.footing := by
  obtain ⟨r, ring, l, o, x, v, e, -, -, -, -, -, hx⟩ := s.loseHead_eq h c
  rw [e, State.footing_withEvents, State.footing_withChange, State.footing_withRing, State.footing_putHead,
    State.footing_withRun] <;> simp [hx]

@[simp] theorem State.footing_addStitches (n : Nat) : (s.addStitches n).footing = s.footing :=
  s.footing_foldl (fun t h => by split <;> simp) _

@[simp] theorem State.footing_joinHeads : s.joinHeads.footing = s.footing := by
  refine s.footing_foldl (fun t h => ?_) _
  unfold State.joinHead
  split
  · split <;> simp
  · rfl

@[simp] theorem State.footing_pauseChange : s.pauseChange.footing = s.footing :=
  State.footing_withChange (by simp)

end Sys2Proof.Machine
end

section
/-! PROOF SUPPORT. What an operation keeps of the design (store, pool, slots, armed slot, scan) and of the mode (run state with
the operation in progress), and the laws each gives. -/

namespace Sys2Proof.Machine

open Sys2Proof

variable {s t u : State}

/-! ### The relations -/

/-- A slot record keeps its blocks and its armed flag, and its state but that READY may become DAMAGED. -/
def SlotRecord.agesTo (r q : SlotRecord) : Prop :=
  q.blockMap = r.blockMap ∧ q.armed = r.armed ∧ (q.state = r.state ∨ r.state = .ready ∧ q.state = .damaged)

theorem SlotRecord.agesTo.refl (r : SlotRecord) : r.agesTo r := ⟨rfl, rfl, .inl rfl⟩

theorem SlotRecord.agesTo.trans {a b c : SlotRecord} (h : a.agesTo b) (g : b.agesTo c) : a.agesTo c := by
  obtain ⟨hm, ha, hs⟩ := h
  obtain ⟨gm, ga, gs⟩ := g
  refine ⟨gm.trans hm, ga.trans ha, ?_⟩
  rcases hs with hs | ⟨ready, damaged⟩
  · rwa [hs] at gs
  · rcases gs with gs | ⟨again, -⟩
    · exact .inr ⟨ready, gs.trans damaged⟩
    · rw [damaged] at again; cases again

/-- The blocks are as they were: a canonical store stays so, the pool stands, and every slot keeps its block map and is EMPTY
only where it was. -/
structure State.KeepsBlocks (s t : State) : Prop where
  store : s.storeCanonical → t.storeCanonical
  pool : t.pool = s.pool
  maps : ∀ k, (t.slot k).blockMap = (s.slot k).blockMap
  empty : ∀ k, (t.slot k).state = .empty → (s.slot k).state = .empty

/-- The blocks and the armed slot are as they were: beside the store and the pool the scan and the armed slot stand, the run
does not come to IDLE, and every slot keeps its blocks and its armed flag. -/
structure State.KeepsDesign (s t : State) : Prop where
  store : s.storeCanonical → t.storeCanonical
  pool : t.pool = s.pool
  scan : t.scan = s.scan
  armedSlot : t.run.armedSlot = s.run.armedSlot
  idle : t.run.state = .idle → s.run.state = .idle
  slots : ∀ k, (s.slot k).agesTo (t.slot k)

/-- The run states in which no change, no walk and no arm trace is in progress. -/
def RunState.plain (v : RunState) : Bool := decide (v ≠ .changing ∧ v ≠ .walking ∧ v ≠ .arming)

/-- The operation in progress is as it was, and the run state too unless it goes from one plain state to another. -/
structure State.KeepsMode (s t : State) : Prop where
  change : t.change.isSome = s.change.isSome
  walk : t.walk.isSome = s.walk.isSome
  trace : t.trace.isSome = s.trace.isSome
  state : t.run.state = s.run.state ∨ s.run.state.plain = true ∧ t.run.state.plain = true

/-- Neither the design nor the mode changes. -/
def State.Steady (s t : State) : Prop := s.KeepsDesign t ∧ s.KeepsMode t

/-- The four laws that these relations are for. -/
structure State.Preserves (s t : State) : Prop where
  store : s.storeCanonical → t.storeCanonical
  blocks : s.blocksAccounted → t.blocksAccounted
  armed : s.armedOnce → t.armedOnce
  mode : s.operationsMatch → t.operationsMatch

/-! ### Each holds along several operations -/

theorem State.KeepsBlocks.trans (h : s.KeepsBlocks t) (g : t.KeepsBlocks u) : s.KeepsBlocks u where
  store := g.store ∘ h.store
  pool := g.pool.trans h.pool
  maps k := (g.maps k).trans (h.maps k)
  empty k := h.empty k ∘ g.empty k

theorem State.KeepsDesign.trans (h : s.KeepsDesign t) (g : t.KeepsDesign u) : s.KeepsDesign u where
  store := g.store ∘ h.store
  pool := g.pool.trans h.pool
  scan := g.scan.trans h.scan
  armedSlot := g.armedSlot.trans h.armedSlot
  idle := h.idle ∘ g.idle
  slots k := (h.slots k).trans (g.slots k)

theorem State.KeepsMode.trans (h : s.KeepsMode t) (g : t.KeepsMode u) : s.KeepsMode u where
  change := g.change.trans h.change
  walk := g.walk.trans h.walk
  trace := g.trace.trans h.trace
  state := by
    rcases g.state with e | ⟨p, q⟩
    · rw [e]; exact h.state
    · rcases h.state with f | ⟨r, -⟩
      · exact .inr ⟨f ▸ p, q⟩
      · exact .inr ⟨r, q⟩

theorem State.Steady.trans (h : s.Steady t) (g : t.Steady u) : s.Steady u := ⟨h.1.trans g.1, h.2.trans g.2⟩

theorem State.Preserves.trans (h : s.Preserves t) (g : t.Preserves u) : s.Preserves u where
  store := g.store ∘ h.store
  blocks := g.blocks ∘ h.blocks
  armed := g.armed ∘ h.armed
  mode := g.mode ∘ h.mode

/-! ### What an untouched footing gives -/

/-- The footing field by field. -/
theorem State.footing_iff : t.footing = s.footing ↔ t.store = s.store ∧ t.pool = s.pool ∧ t.slots = s.slots ∧
    t.scan = s.scan ∧ t.run.armedSlot = s.run.armedSlot ∧ t.run.state = s.run.state ∧
    t.change.isSome = s.change.isSome ∧ t.walk.isSome = s.walk.isSome ∧ t.trace.isSome = s.trace.isSome := by
  simp [State.footing]

theorem State.slot_congr (h : t.slots = s.slots) (k : Nat) : t.slot k = s.slot k := by simp [State.slot, h]

theorem State.runState_of_footing (h : t.footing = s.footing) : t.run.state = s.run.state := by
  obtain ⟨-, -, -, -, -, state, -⟩ := State.footing_iff.mp h
  exact state

theorem State.KeepsDesign.of_footing (h : t.footing = s.footing) : s.KeepsDesign t := by
  obtain ⟨store, pool, slots, scan, armed, state, -⟩ := State.footing_iff.mp h
  exact ⟨State.storeCanonical_congr store, pool, scan, armed, fun e => state ▸ e,
    fun k => State.slot_congr slots k ▸ .refl _⟩

theorem State.KeepsMode.of_footing (h : t.footing = s.footing) : s.KeepsMode t := by
  obtain ⟨-, -, -, -, -, state, change, walk, trace⟩ := State.footing_iff.mp h
  exact ⟨change, walk, trace, .inl state⟩

theorem State.Steady.of_footing (h : t.footing = s.footing) : s.Steady t := ⟨.of_footing h, .of_footing h⟩

theorem State.Steady.refl (s : State) : s.Steady s := .of_footing rfl

/-- Both outcomes of a test being steady, so is the test. -/
theorem State.Steady.ite {p : Prop} [Decidable p] (h : s.Steady t) (g : s.Steady u) : s.Steady (if p then t else u) := by
  split
  · exact h
  · exact g

/-! ### The laws each relation gives -/

theorem State.KeepsDesign.keepsBlocks (h : s.KeepsDesign t) : s.KeepsBlocks t where
  store := h.store
  pool := h.pool
  maps k := (h.slots k).1
  empty k e := by
    obtain ⟨-, -, same | ⟨-, damaged⟩⟩ := h.slots k
    · exact same ▸ e
    · rw [damaged] at e; cases e

/-- Block maps that stand hold the blocks they held. -/
theorem State.heldBlocks_congr (h : ∀ k, (t.slot k).blockMap = (s.slot k).blockMap) : t.heldBlocks = s.heldBlocks := by
  simp [State.heldBlocks, h]

theorem State.KeepsBlocks.blocksAccounted (h : s.KeepsBlocks t) (law : s.blocksAccounted) : t.blocksAccounted := by
  obtain ⟨perm, rising, none⟩ := law
  refine ⟨?_, h.pool ▸ rising, fun k e => (h.maps k).trans (none k (h.empty k e))⟩
  rw [h.pool, State.heldBlocks_congr h.maps]
  exact perm

theorem State.KeepsDesign.armedOnce (h : s.KeepsDesign t) (law : s.armedOnce) : t.armedOnce := by
  obtain ⟨one, kept, idle, closing⟩ := law
  refine ⟨fun k => ?_, fun k a => ?_, fun e => h.armedSlot.trans (idle (h.idle e)), fun c e => ?_⟩
  · rw [(h.slots k).2.1, h.armedSlot]; exact one k
  · obtain ⟨-, armed, same | ⟨-, damaged⟩⟩ := h.slots k
    · rw [same]; exact kept k (armed ▸ a)
    · exact .inr damaged
  · have was := closing c (h.scan ▸ e)
    obtain ⟨-, -, same | ⟨ready, -⟩⟩ := h.slots c.slot
    · exact same.trans was
    · rw [was] at ready; cases ready

/-- With no slot armed the law of the armed slot speaks of the slots and the scan alone. -/
theorem State.armedOnce_of_unarmed (law : s.armedOnce) (none : s.run.armedSlot = none) (slots : t.slots = s.slots)
    (scan : t.scan = s.scan) (armed : t.run.armedSlot = s.run.armedSlot) : t.armedOnce := by
  obtain ⟨one, kept, -, closing⟩ := law
  have slot := State.slot_congr slots
  refine ⟨fun k => ?_, fun k => ?_, fun _ => armed.trans none, fun c e => ?_⟩
  · rw [slot, armed]; exact one k
  · rw [slot]; exact kept k
  · rw [slot]; exact closing c (scan ▸ e)

/-- The run is in a plain state and no operation is in progress. -/
def State.Rests (s : State) : Prop :=
  s.change.isSome = false ∧ s.walk.isSome = false ∧ s.trace.isSome = false ∧ s.run.state.plain = true

theorem RunState.plain_iff (v : RunState) : v.plain = true ↔ v ≠ .changing ∧ v ≠ .walking ∧ v ≠ .arming := by
  simp [RunState.plain]

/-- A run at rest meets the law of the operations. -/
theorem State.Rests.operationsMatch (h : s.Rests) : s.operationsMatch := by
  obtain ⟨change, walk, trace, plain⟩ := h
  obtain ⟨a, b, c⟩ := (RunState.plain_iff _).mp plain
  simp [State.operationsMatch, change, walk, trace, a, b, c]

/-- Under the law of the operations a run in a plain state is at rest. -/
theorem State.operationsMatch.rests (h : s.operationsMatch) (plain : s.run.state.plain = true) : s.Rests := by
  obtain ⟨a, b, c⟩ := (RunState.plain_iff _).mp plain
  obtain ⟨change, walk, trace⟩ := h
  simp_all [State.Rests]

theorem State.KeepsMode.rests (h : s.KeepsMode t) (r : s.Rests) : t.Rests := by
  obtain ⟨change, walk, trace, plain⟩ := r
  refine ⟨h.change.trans change, h.walk.trans walk, h.trace.trans trace, ?_⟩
  rcases h.state with e | ⟨-, p⟩
  · rw [e]; exact plain
  · exact p

theorem State.KeepsMode.operationsMatch (h : s.KeepsMode t) (law : s.operationsMatch) : t.operationsMatch := by
  rcases h.state with e | ⟨p, -⟩
  · rw [State.operationsMatch, h.change, h.walk, h.trace, e]; exact law
  · exact (h.rests (law.rests p)).operationsMatch

theorem State.Preserves.of_design (h : s.KeepsDesign t) (m : s.operationsMatch → t.operationsMatch) : s.Preserves t :=
  ⟨h.store, h.keepsBlocks.blocksAccounted, h.armedOnce, m⟩

theorem State.Steady.preserves (h : s.Steady t) : s.Preserves t := .of_design h.1 h.2.operationsMatch

theorem State.Preserves.of_footing (h : t.footing = s.footing) : s.Preserves t := (State.Steady.of_footing h).preserves

/-! ### Frames and events -/

/-- A frame that ends on a port preserves what its body preserves. -/
theorem State.Preserves.onFrame {port : Port} {body : State → State} (h : ∀ t : State, t.Preserves (body t)) :
    s.Preserves (s.onFrame port body) := by
  unfold State.onFrame
  split
  · exact (State.Preserves.of_footing (by simp)).trans (h _)
  · exact .of_footing (by simp)

/-- An event of the part preserves what its body preserves. -/
theorem State.Preserves.onEvent {body : State → State} (h : s.Preserves (body s)) : s.Preserves (s.onEvent body) := by
  unfold State.onEvent
  split
  · exact .of_footing rfl
  · exact h

/-! ### Writes of one slot record and of the run state -/

/-- A slot record rewritten with its blocks, its armed flag and its state leaves the design and the mode. -/
theorem State.Steady.putSlot (k : Nat) (r : SlotRecord) (h : (s.slot k).agesTo r) : s.Steady (s.putSlot k r) where
  left := {
    store := State.storeCanonical_congr rfl, pool := rfl, scan := rfl, armedSlot := rfl, idle := id
    slots := fun j => by
      rw [State.slot_putSlot]
      split
      · next e => exact e ▸ h
      · exact .refl _ }
  right := ⟨rfl, rfl, rfl, .inl rfl⟩

theorem State.Steady.damageSlot (s : State) (k : Nat) : s.Steady (s.damageSlot k) := by
  unfold State.damageSlot
  split
  · next ready => exact .putSlot k _ ⟨rfl, rfl, .inr ⟨ready, rfl⟩⟩
  · exact .refl s

/-- What changes the store and the Event Queue alone, and keeps the store canonical, leaves the design and the mode. -/
theorem State.Steady.of_store (e : ∃ st v, t = (s.withStore st).withEvents v) (h : s.storeCanonical → t.storeCanonical) :
    s.Steady t := by
  obtain ⟨st, v, rfl⟩ := e
  exact ⟨⟨h, rfl, rfl, rfl, id, fun _ => .refl _⟩, ⟨rfl, rfl, rfl, .inl rfl⟩⟩

/-- A write of the run state leaves every field of the footing but itself. -/
theorem State.footing_setRunState (s : State) (v : RunState) :
    (s.setRunState v).footing = (s.withRun { s.run with state := v }).footing := by
  obtain ⟨b, a, e⟩ := s.setRunState_eq v
  rw [e]; rfl

@[simp] theorem State.setRunState_state (s : State) (v : RunState) : (s.setRunState v).run.state = v :=
  State.runState_of_footing (s.footing_setRunState v)

/-- A run state other than IDLE keeps the design. -/
theorem State.KeepsDesign.setRunState (s : State) {v : RunState} (h : v ≠ .idle) : s.KeepsDesign (s.setRunState v) :=
  State.KeepsDesign.trans (t := s.withRun { s.run with state := v })
    ⟨id, rfl, rfl, rfl, fun e => absurd e h, fun _ => .refl _⟩ (.of_footing (s.footing_setRunState v))

/-- From a plain run state to another the mode is kept. -/
theorem State.KeepsMode.setRunState {v : RunState} (p : s.run.state.plain = true) (h : v.plain = true) :
    s.KeepsMode (s.setRunState v) :=
  State.KeepsMode.trans (t := s.withRun { s.run with state := v }) ⟨rfl, rfl, rfl, .inr ⟨p, h⟩⟩
    (.of_footing (s.footing_setRunState v))

theorem State.Steady.setRunState {v : RunState} (p : s.run.state.plain = true) (h : v.plain = true) (n : v ≠ .idle) :
    s.Steady (s.setRunState v) := ⟨.setRunState s n, .setRunState p h⟩

/-- A stop requested by a block leaves the design and the mode: RUNNING becomes STOPPING, and a change its action alone. -/
theorem State.Steady.requestStop (s : State) (reason : StopReason) : s.Steady (s.requestStop reason) := by
  unfold State.requestStop
  split
  · next e =>
    exact (State.Steady.setRunState (v := .stopping) (by rw [e]; rfl) rfl (by decide)).trans (.of_footing (by simp))
  · split
    · exact .of_footing (by simp)
    · exact .refl s
  · split
    · exact .of_footing (by simp)
    · exact .refl s
  · exact .refl s

end Sys2Proof.Machine
end

section
/-! PROOF SUPPORT. What each operation keeps of the design and of the mode, in the order of the model's files. -/

namespace Sys2Proof.Machine

open Sys2Proof

variable (s : State)

/-! ### The store: reads, writes, changed bits (chapter 1) -/

theorem State.Steady.readChunk (n : Nat) : s.Steady (s.readChunk n).1 := by
  obtain ⟨st, v, e, -⟩ := s.readChunk_eq n
  exact .of_store ⟨st, v, e⟩ (State.storeCanonical_readChunk n)

theorem State.Steady.storeBitChange (n : Nat) (bits : List Nat) : s.Steady (s.storeBitChange n bits) := by
  refine .of_store ?_ (State.storeCanonical_storeBitChange n bits)
  unfold State.storeBitChange
  split
  · exact ⟨(s.putChunk n ((s.chunk n).changeBits bits)).store, s.events, rfl⟩
  · exact ⟨s.store, s.events, rfl⟩

/-- What a port P access does keeps the design and the mode: it writes chunks, records a fault, damages a READY slot. -/
theorem State.Steady.carryOut (a : PortAccess) : s.Steady (s.carryOut a).1 := by
  unfold State.carryOut
  split
  · next rs _ =>
    split
    · exact .refl s
    · have written : s.Steady (s.writeRequest a.index rs a.spans).1 :=
        .of_store (s.writeRequest_eq _ _ _) (State.storeCanonical_writeRequest _ _ _)
      split
      · next e => rw [e] at written; exact written
      · next e => rw [e] at written; exact written.trans (.of_footing (by simp))
  · have read : s.Steady (s.readSpans a.spans).1 :=
      .of_store (s.readSpans_eq _) (State.storeCanonical_readSpans _)
    split
    · next e => rw [e] at read; exact read
    · next e => rw [e] at read; exact (read.trans (.of_footing (State.footing_recordFault _ _ _ _ _ _))).trans (.damageSlot _ _)

theorem State.Steady.settlePortAccess : s.Steady s.settlePortAccess := by
  unfold State.settlePortAccess
  split
  · next a _ =>
    have done := State.Steady.carryOut s a
    split
    next e => rw [e] at done; exact done.trans (.of_footing (by simp))
  · exact .refl s

theorem State.Steady.askPortAccess (slot index count : Nat) (write : Option (List StitchRecord)) :
    s.Steady (s.askPortAccess slot index count write) :=
  (State.Steady.settlePortAccess s).trans (.of_footing (by simp [State.askPortAccess]))

theorem State.Steady.writeRecords (slot index : Nat) (records : List WireRecord) :
    s.Steady (s.writeRecords slot index records) := by
  simp only [State.writeRecords]
  split
  · exact .of_footing (by simp)
  · split
    · exact .of_footing (by simp)
    · split
      · exact .of_footing (by simp)
      · split
        · exact .of_footing (by simp)
        · exact .askPortAccess s _ _ _ _

theorem State.Steady.readRecords (slot index count : Nat) : s.Steady (s.readRecords slot index count) := by
  simp only [State.readRecords]
  split
  · exact .of_footing (by simp)
  · split
    · exact .of_footing (by simp)
    · exact .askPortAccess s _ _ _ _

theorem State.Steady.portAccessDone : s.Steady s.portAccessDone := by
  unfold State.portAccessDone
  split
  · next a _ _ =>
    have done := State.Steady.carryOut s a
    split
    next e =>
      rw [e] at done
      dsimp only
      split
      · exact done.trans (.of_footing (by simp))
      · exact done.trans (.of_footing (by simp))
  · exact .refl s

/-! ### Slots (chapter 2) -/

/-- Defining colour table entries leaves the rest of a slot record. -/
theorem SlotRecord.agesTo_putColours (r : SlotRecord) (first : Nat) (entries : List ColourEntry) :
    r.agesTo (r.putColours first entries) := by
  induction entries generalizing r first with
  | nil => exact .refl r
  | cons e rest ih => exact SlotRecord.agesTo.trans (b := r.putColour first e) ⟨rfl, rfl, .inl rfl⟩ (ih _ _)

theorem State.Steady.setColours (slot first : Nat) (entries : List ColourEntry) :
    s.Steady (s.setColours slot first entries) := by
  have written : s.Steady ((s.putSlot slot ((s.slot slot).putColours first entries)).reply .p .ok []) :=
    (State.Steady.putSlot slot _ (SlotRecord.agesTo_putColours _ _ _)).trans (.of_footing (State.footing_reply _ _ _ _))
  have refused : ∀ code, s.Steady (s.refuse .p code) := fun code => .of_footing (by simp)
  refine .ite (refused _) (.ite (refused _) (.ite (refused _) (.ite (refused _) (.ite (refused _) (.ite (refused _)
    (.ite ?_ written))))))
  split
  · exact refused _
  · exact written

theorem State.Steady.keepSlot (slot : Nat) (on : Bool) : s.Steady (s.keepSlot slot on) := by
  unfold State.keepSlot
  split
  · exact .of_footing (by simp)
  · split
    · exact .of_footing (by simp)
    · exact (State.Steady.putSlot slot { s.slot slot with keep := on } ⟨rfl, rfl, .inl rfl⟩).trans
        (.of_footing (State.footing_reply _ _ _ _))

/-! ### Preparation and the Move Queue (chapters 3 and 5) -/

@[simp] theorem State.footing_placeMove (kind : TokenKind) (slow : Bool) (goal : Point) (last : Bool) (design : Point)
    (role : TokenRole) : (s.placeMove kind slow goal last design role).footing = s.footing := rfl

@[simp] theorem State.footing_placeApproachPiece (sp : Split) : (s.placeApproachPiece sp).footing = s.footing := by
  simp only [State.placeApproachPiece]
  split <;> simp

@[simp] theorem State.footing_placeRecordPiece (sp : Split) (r : StitchRecord) :
    (s.placeRecordPiece sp r).footing = s.footing := by
  simp only [State.placeRecordPiece]
  split <;> simp

@[simp] theorem State.footing_placeHalt (reason : HaltReason) : (s.placeHalt reason).footing = s.footing := rfl

@[simp] theorem State.footing_placeHaltTrim (reason : HaltReason) : (s.placeHaltTrim reason).footing = s.footing := rfl

@[simp] theorem State.footing_placeRecord (r : StitchRecord) : (s.placeRecord r).footing = s.footing := by
  unfold State.placeRecord
  split
  case h_4 => split <;> simp
  all_goals simp

@[simp] theorem State.footing_askPrepareRead : s.askPrepareRead.footing = s.footing := by
  unfold State.askPrepareRead
  split <;> simp

@[simp] theorem State.footing_turnAtRecord : s.turnAtRecord.footing = s.footing := by
  unfold State.turnAtRecord
  split
  · simp
  · split <;> simp

theorem State.footing_prepareOne : s.prepareOne.footing = s.footing := by
  unfold State.prepareOne
  split
  · split
    · unfold State.turnAtSplit
      split
      · simp
      · split <;> simp
    · simp
    · simp only [State.turnAtApproach]; split <;> simp
    · simp
    · simp
  · rfl

theorem State.Steady.prepareReadDone : s.Steady s.prepareReadDone := by
  unfold State.prepareReadDone
  split
  · next read _ _ _ =>
    have done := State.Steady.readChunk s read.chunk
    split
    next t _ e =>
      rw [e] at done
      have ended : s.Steady (t.endAccess .sequencer) := done.trans (.of_footing (by simp))
      dsimp only
      split
      · split
        · exact ended.trans (.of_footing (by simp))
        · refine ended.trans (State.Steady.trans (.of_footing ?_) (.requestStop _ _))
          simp [State.footing_withRun]
      · exact ended
  · exact .refl s

theorem State.footing_fetchMoves (max : Nat) : (s.fetchMoves max).footing = s.footing := by
  have opened : s.openStarvation.footing = s.footing := by
    unfold State.openStarvation
    split <;> simp
  unfold State.fetchMoves
  split
  · simp
  · simp [opened]

/-! ### Completions, handover and the end of a repair pass (chapters 5, 9 and 10) -/

/-- A run in a plain state that is finished stays in one. -/
theorem State.Steady.finishRepair {s : State} (p : s.run.state.plain = true) : s.Steady s.finishRepair :=
  (State.Steady.setRunState (v := .finished) p rfl (by decide)).trans (.of_footing (by simp [State.finishRepair]))

theorem State.Steady.checkPassEmptied : s.Steady s.checkPassEmptied := by
  unfold State.checkPassEmptied
  split
  · unfold State.passEmptied
    split
    · exact .requestStop s _
    · exact .requestStop s _
    · next e => exact .finishRepair (by rw [e]; rfl)
    · exact .of_footing (State.footing_withWalk (by simp))
    · exact .refl s
  · exact .refl s

theorem State.Steady.passUpdate : s.Steady s.passUpdate := by
  refine State.Steady.trans (.of_footing ?_) (.checkPassEmptied _)
  refine (State.footing_foldl _ (fun t h => ?_) _).trans (by simp)
  split <;> simp

theorem State.Steady.repairCursorMoved (t : Token) : s.Steady (s.repairCursorMoved t) := by
  have told : ((s.fixToIndex t).moveDeferred t).footing = s.footing := by
    simp [State.moveDeferred, State.fixToIndex]
  unfold State.repairCursorMoved
  dsimp only
  split
  · exact .of_footing told
  · exact (State.Steady.of_footing told).trans (.passUpdate _)

theorem State.Steady.completeToken (t : Token) : s.Steady (s.completeToken t) := by
  simp only [State.completeToken]
  split
  · refine ((State.Steady.of_footing ?_).trans (.repairCursorMoved _ t)).trans (.of_footing (State.footing_withQueue _ _))
    rfl
  · exact .of_footing (by simp [State.footing_withRun])

theorem State.Steady.completeTokens (n : Nat) : s.Steady (s.completeTokens n) := by
  induction n generalizing s with
  | zero => exact .refl s
  | succ n ih =>
    unfold State.completeTokens
    split
    · exact .refl s
    · exact (State.Steady.trans (.of_footing (by simp)) (.completeToken _ _)).trans (ih _)

theorem State.Steady.applyPolicy : s.Steady s.applyPolicy := by
  unfold State.applyPolicy
  split
  · exact .requestStop s _
  · exact .refl s

theorem State.Steady.stopForLoss (wasActive : Bool) : s.Steady (s.stopForLoss wasActive) := by
  unfold State.stopForLoss
  split
  · exact .requestStop s _
  · exact .refl s

theorem State.Steady.handover (steps : Nat) : s.Steady (s.handover steps) := by
  simp only [State.handover]
  split
  · exact .of_footing (by simp)
  · refine State.Steady.trans (.of_footing ?_) (.applyPolicy _)
    exact (State.footing_foldl _ (fun t h => by simp) _).trans (by simp)

theorem State.Steady.completeReport (n : Nat) : s.Steady (s.completeReport n) :=
  (State.Steady.completeTokens s n).trans (.handover _ _)

/-! ### The panel's commands, the heads and the ring (chapters 8, 9, 11 and 12) -/

theorem State.footing_setInhibit (h : Nat) (needles : BitVec 16) : (s.setInhibit h needles).footing = s.footing := by
  have skip : ∀ t : State, (t.skipForInhibit h).footing = t.footing := by
    intro t
    unfold State.skipForInhibit
    split
    case h_5 => exact State.footing_withWalk (by simp)
    all_goals simp
  simp only [State.setInhibit]
  split
  · simp
  · split <;> simp [skip]

theorem State.footing_headOff (h : Nat) : (s.headOff h).footing = s.footing := by
  unfold State.headOff
  split
  · simp
  · split <;> simp

theorem State.Steady.bringBack (h : Nat) : s.Steady (s.bringBack h) := by
  unfold State.bringBack
  split
  · dsimp only
    split
    · exact .of_footing (by simp)
    · exact State.Steady.trans (.of_footing (by simp)) (.checkPassEmptied _)
  · exact .of_footing (by simp)

theorem State.Steady.headOn (h : Nat) : s.Steady (s.headOn h) := by
  unfold State.headOn
  split
  · exact .of_footing (by simp)
  · split
    · exact .of_footing (by simp)
    · split
      case h_6 =>
        split
        · exact .of_footing (by simp)
        · exact (State.Steady.bringBack s h).trans (.of_footing (by simp))
      all_goals exact .of_footing (by simp)

theorem State.footing_setConstants (c : ConstantsFrame) : (s.setConstants c).footing = s.footing := by
  have zero : ∀ t : State, t.zeroCounts.footing = t.footing := fun t => t.footing_foldl (fun u h => by simp) _
  unfold State.setConstants
  repeat' split
  all_goals simp [zero]

theorem State.footing_startRing : s.startRing.footing = s.footing := by
  have absent : ∀ t : State, t.absentHeads.footing = t.footing := fun t => t.footing_foldl (fun u h => by simp) _
  unfold State.startRing
  repeat' split
  all_goals simp [State.takeRingStart, absent]

@[simp] theorem State.footing_flyUnicast (r : RingRequest) (roundRobin : Bool) :
    (s.flyUnicast r roundRobin).footing = s.footing := rfl

@[simp] theorem State.footing_flySelection (r : RingRequest) : (s.flySelection r).footing = s.footing := rfl

@[simp] theorem State.footing_flyPoll : s.flyPoll.footing = s.footing := by
  unfold State.flyPoll
  split <;> simp

theorem State.footing_flyOldest (l : List RingRequest) : (s.flyOldest l).footing = s.footing := by
  induction l with
  | nil => simp [State.flyOldest]
  | cons r rest ih =>
    simp only [State.flyOldest]
    repeat' split
    all_goals first | exact ih | simp

theorem State.footing_ringTransactionStart : s.ringTransactionStart.footing = s.footing := by
  unfold State.ringTransactionStart
  split
  · rfl
  · split
    · rfl
    · unfold State.flyEnumeration
      split
      · rfl
      · split <;> simp
    · exact s.footing_flyOldest _

theorem State.footing_broadcastSent : s.broadcastSent.footing = s.footing := by
  have mark : ∀ t : State, t.markSelectionSent.footing = t.footing := fun t => State.footing_withChange (by simp)
  unfold State.broadcastSent
  split
  · rfl
  · dsimp only
    repeat' split
    all_goals simp [mark]

@[simp] theorem State.footing_endEnumeration (foundA foundB : Nat) :
    (s.endEnumeration foundA foundB).footing = s.footing := by
  have placed : ∀ (t : State) h, (t.placeFound foundA foundB h).footing = t.footing := by
    intro t h
    simp only [State.placeFound]
    repeat' split
    all_goals simp
  simp only [State.endEnumeration, State.footing_post]
  exact (State.footing_foldl _ placed _).trans (by simp)

theorem State.footing_assignAnswered : s.assignAnswered.footing = s.footing := by
  unfold State.assignAnswered
  split
  · rfl
  · dsimp only
    split
    · rfl
    · split <;> simp
    · split <;> simp

theorem State.footing_assignMissed : s.assignMissed.footing = s.footing := by
  unfold State.assignMissed
  split
  · rfl
  · split <;> simp

theorem State.footing_recoveryAnswered (h : Nat) (w : RingWord) : (s.recoveryAnswered h w).footing = s.footing := by
  unfold State.recoveryAnswered State.reportNeedle
  dsimp only
  split
  · simp
  · split
    · simp
    · repeat' split
      all_goals simp

theorem State.footing_watchBobbin (h : Nat) (w : RingWord) : (s.watchBobbin h w).footing = s.footing := by
  simp only [State.watchBobbin]
  split <;> simp

theorem State.footing_watchMotion (h : Nat) (w : RingWord) : (s.watchMotion h w).footing = s.footing := by
  unfold State.watchMotion
  split <;> simp

theorem State.footing_watchTension (h : Nat) (w : RingWord) : (s.watchTension h w).1.footing = s.footing := by
  simp only [State.watchTension]
  repeat' split
  all_goals simp

theorem State.footing_watchSwitch (h : Nat) (w : RingWord) : (s.watchSwitch h w).footing = s.footing := by
  unfold State.watchSwitch
  repeat' split
  all_goals simp

theorem State.footing_requeueMissed (t : Transaction) : (s.requeueMissed t).footing = s.footing := by
  simp only [State.requeueMissed]
  repeat' split
  all_goals simp

theorem State.footing_timeTagTick : s.timeTagTick.footing = s.footing := by
  unfold State.timeTagTick
  split <;> simp

theorem State.footing_chipSelect (port : Port) (bytes : Nat) (early : Bool) :
    (s.chipSelect port bytes early).footing = s.footing := by
  simp only [State.chipSelect]
  repeat' split
  all_goals simp

end Sys2Proof.Machine
end

section
/-! PROOF SUPPORT. The operations that start or end a change or a walk: they keep the design, and what they make of the mode. -/

namespace Sys2Proof.Machine

open Sys2Proof

/-! ### Writes of one field of the footing -/

section congr

variable {s t : State}

theorem State.footing_withChange_congr (h : t.footing = s.footing) (v : Option ChangeRecord) :
    (t.withChange v).footing = (s.withChange v).footing := by
  obtain ⟨store, pool, slots, scan, armed, state, -, walk, trace⟩ := State.footing_iff.mp h
  exact State.footing_iff.mpr ⟨store, pool, slots, scan, armed, state, rfl, walk, trace⟩

theorem State.footing_withTrace_congr (h : t.footing = s.footing) (v : Option ArmTrace) :
    (t.withTrace v).footing = (s.withTrace v).footing := by
  obtain ⟨store, pool, slots, scan, armed, state, change, walk, -⟩ := State.footing_iff.mp h
  exact State.footing_iff.mpr ⟨store, pool, slots, scan, armed, state, change, walk, rfl⟩

theorem State.footing_runState_congr (h : t.footing = s.footing) (v : RunState) :
    (t.withRun { t.run with state := v }).footing = (s.withRun { s.run with state := v }).footing := by
  obtain ⟨store, pool, slots, scan, armed, -, change, walk, trace⟩ := State.footing_iff.mp h
  exact State.footing_iff.mpr ⟨store, pool, slots, scan, armed, rfl, change, walk, trace⟩

end congr

variable (s : State)

/-- What the fields of the design alone decide: the change, the walk and the trace are no part of it. -/
theorem State.KeepsDesign.withChange (v : Option ChangeRecord) : s.KeepsDesign (s.withChange v) :=
  ⟨id, rfl, rfl, rfl, id, fun _ => .refl _⟩

theorem State.KeepsDesign.withWalk (v : Option WalkRecord) : s.KeepsDesign (s.withWalk v) :=
  ⟨id, rfl, rfl, rfl, id, fun _ => .refl _⟩

theorem State.KeepsDesign.withTrace (v : Option ArmTrace) : s.KeepsDesign (s.withTrace v) :=
  ⟨id, rfl, rfl, rfl, id, fun _ => .refl _⟩

theorem State.KeepsDesign.withRunState {v : RunState} (h : v ≠ .idle) : s.KeepsDesign (s.withRun { s.run with state := v }) :=
  ⟨id, rfl, rfl, rfl, fun e => absurd e h, fun _ => .refl _⟩

theorem State.Preserves.refl : s.Preserves s := .of_footing rfl

/-! ### Colour changes (chapter 7) -/

/-- The resume decision writes the run state, RUNNING or PAUSED, and nothing else of the footing. -/
theorem State.resumeDecision_footing (action : ChangeAction) (full : Option Nat) : ∃ st : RunState,
    (s.resumeDecision action full).footing = (s.withRun { s.run with state := st }).footing ∧
      (st = .running ∨ st = .paused) := by
  obtain ⟨st, r, q, a, v, e, ends⟩ := s.resumeDecision_eq action full
  exact ⟨st, by rw [e]; rfl, ends⟩

/-- The end of a change once its inhibit check has been made (R111, R112): the resume decision, CHANGE_DONE, and the change
record gone. -/
def State.concludeChange (u : State) (action : ChangeAction) (full : Option Nat) : State :=
  let w := (u.withChange (u.change.map fun d => { d with listFull := full.isSome })).resumeDecision action full
  (w.post .changeDone 0 w.needleParam).withChange none

/-- The state in which the inhibit check of a completed change is made (R110). -/
def State.settledNeedle (s : State) (c : ChangeRecord) : State :=
  (s.withRun { s.run with needle := c.target }).withChange
    (some { c with selectionSent := false, confirm := [], deadline := none })

theorem State.completeChange_eq (c : ChangeRecord) : s.completeChange c =
    ((s.settledNeedle c).inhibitCheck headNumbers).1.concludeChange c.action
      ((s.settledNeedle c).inhibitCheck headNumbers).2 := by
  unfold State.completeChange State.concludeChange State.settledNeedle
  generalize headNumbers = hs
  rfl

theorem State.concludeChange_footing (action : ChangeAction) (full : Option Nat) : ∃ st : RunState,
    (s.concludeChange action full).footing = ((s.withRun { s.run with state := st }).withChange none).footing ∧
      (st = .running ∨ st = .paused) := by
  have marked : (s.withChange (s.change.map fun d => { d with listFull := full.isSome })).footing = s.footing :=
    State.footing_withChange (by simp)
  obtain ⟨st, decided, ends⟩ :=
    (s.withChange (s.change.map fun d => { d with listFull := full.isSome })).resumeDecision_footing action full
  refine ⟨st, ?_, ends⟩
  refine State.footing_withChange_congr ((State.footing_post _ _ _ _).trans (decided.trans ?_)) none
  exact State.footing_runState_congr marked st

/-- The completion of a change ends it and leaves the run RUNNING or PAUSED; the rest of the footing stands. -/
theorem State.completeChange_footing (c : ChangeRecord) : ∃ st : RunState,
    (s.completeChange c).footing = ((s.withRun { s.run with state := st }).withChange none).footing ∧
      (st = .running ∨ st = .paused) := by
  obtain ⟨st, e, ends⟩ := State.concludeChange_footing ((s.settledNeedle c).inhibitCheck headNumbers).1 c.action
    ((s.settledNeedle c).inhibitCheck headNumbers).2
  refine ⟨st, ?_, ends⟩
  rw [State.completeChange_eq, e]
  exact State.footing_withChange_congr
    (State.footing_runState_congr (t := _) (s := s.settledNeedle c) (State.footing_inhibitCheck _ _) st) none

theorem State.KeepsDesign.completeChange (c : ChangeRecord) : s.KeepsDesign (s.completeChange c) := by
  obtain ⟨st, e, ends⟩ := s.completeChange_footing c
  have live : st ≠ .idle := by rcases ends with rfl | rfl <;> decide
  exact ((State.KeepsDesign.withRunState s live).trans (.withChange _ none)).trans (.of_footing e)

/-- With neither walk nor trace in progress the run is at rest once its change is complete. -/
theorem State.rests_completeChange (c : ChangeRecord) (walk : s.walk.isSome = false) (trace : s.trace.isSome = false) :
    (s.completeChange c).Rests := by
  obtain ⟨st, e, ends⟩ := s.completeChange_footing c
  have plain : st.plain = true := by rcases ends with rfl | rfl <;> rfl
  have rests : ((s.withRun { s.run with state := st }).withChange none).Rests := ⟨rfl, walk, trace, plain⟩
  exact (State.KeepsMode.of_footing e).rests rests

variable {s} in
/-- In CHANGING neither a walk nor a trace is in progress. -/
theorem State.operationsMatch.of_change (h : s.operationsMatch) (c : s.change.isSome = true) :
    s.run.state = .changing ∧ s.walk.isSome = false ∧ s.trace.isSome = false := by
  obtain ⟨change, walk, trace⟩ := h
  have st := change.mp c
  rw [st] at walk trace
  exact ⟨st, by simpa using walk, by simpa using trace⟩

variable {s} in
/-- In WALKING neither a change nor a trace is in progress. -/
theorem State.operationsMatch.of_walk (h : s.operationsMatch) (w : s.walk.isSome = true) :
    s.run.state = .walking ∧ s.change.isSome = false ∧ s.trace.isSome = false := by
  obtain ⟨change, walk, trace⟩ := h
  have st := walk.mp w
  rw [st] at change trace
  exact ⟨st, by simpa using change, by simpa using trace⟩

variable {s} in
/-- In ARMING neither a change nor a walk is in progress. -/
theorem State.operationsMatch.of_trace (h : s.operationsMatch) (t : s.trace.isSome = true) :
    s.run.state = .arming ∧ s.change.isSome = false ∧ s.walk.isSome = false := by
  obtain ⟨change, walk, trace⟩ := h
  have st := trace.mp t
  rw [st] at change walk
  exact ⟨st, by simpa using change, by simpa using walk⟩

theorem State.Preserves.settleChange : s.Preserves s.settleChange := by
  unfold State.settleChange
  split
  · next c e =>
    split
    · refine .of_design (.completeChange s c) fun law => ?_
      obtain ⟨-, walk, trace⟩ := law.of_change (by simp [e])
      exact (s.rests_completeChange c walk trace).operationsMatch
    · exact .refl s
  · exact .refl s

/-- A run at rest that becomes CHANGING with a change record. -/
theorem State.Preserves.enterChange {s : State} (record : ChangeRecord) (r : s.operationsMatch → s.Rests) :
    s.Preserves ((s.withChange (some record)).setRunState .changing) := by
  refine .of_design ((State.KeepsDesign.withChange s _).trans (.setRunState _ (by decide))) fun law => ?_
  obtain ⟨-, walk, trace, -⟩ := r law
  refine (State.KeepsMode.of_footing (State.footing_setRunState _ _)).operationsMatch ?_
  simp [State.operationsMatch, walk, trace]

/-- A change that starts from a run at rest. -/
theorem State.Preserves.startChange {s : State} (needle : Nat) (action : ChangeAction) (r : s.operationsMatch → s.Rests) :
    s.Preserves (s.startChange needle action) := by
  refine State.Preserves.trans ?_ (.settleChange _)
  exact (State.Preserves.enterChange _ r).trans
    (.of_footing ((State.footing_offer _ _).trans (State.footing_withRing _ _)))

/-- A START that is taken. -/
theorem State.Preserves.takeStart {s : State} (p : s.run.state.plain = true) : s.Preserves s.takeStart := by
  simp only [State.takeStart]
  split
  · exact (State.Preserves.of_footing (s.footing_setStopReason _)).trans (.startChange _ _ fun law => law.rests p)
  · have runs := State.Steady.setRunState (s := s.setStopReason .none) (v := .running) p rfl (by decide)
    exact ((State.Steady.of_footing (s.footing_setStopReason .none)).trans
      (runs.trans (.of_footing (State.footing_withSeq _ _)))).preserves

theorem State.Preserves.startRun : s.Preserves s.startRun := by
  unfold State.startRun
  split
  · exact .of_footing (by simp)
  · split
    · exact .of_footing (by simp)
    · next busy armed =>
      have plain : s.run.state.plain = true := by
        rw [RunState.plain_iff]
        refine ⟨fun e => armed ?_, busy, fun e => armed ?_⟩ <;> simp [e]
      split
      · exact .of_footing (by simp)
      · exact (State.Preserves.takeStart plain).trans (.of_footing (by simp))

theorem State.Preserves.changeDeadline : s.Preserves s.changeDeadline := by
  unfold State.changeDeadline
  split
  · exact .refl s
  · split
    · exact .refl s
    · exact (State.Preserves.of_footing (State.footing_foldl s (fun t h => by simp) _)).trans (.settleChange _)

/-! ### Answers and misses of the ring (chapters 8 and 9) -/

theorem State.Preserves.confirmNeedle (t : Transaction) (w : RingWord) : s.Preserves (s.confirmNeedle t w) := by
  unfold State.confirmNeedle
  split
  · exact .refl s
  · next c e =>
    split
    · exact (State.Preserves.of_footing (State.footing_withChange (by simp [e]))).trans (.settleChange _)
    · exact .refl s

/-- A head that is lost, the stop it may ask for, and the change it may complete. -/
theorem State.Preserves.loseAndSettle (h : Nat) (c : LossCause) (wasActive : Bool) :
    s.Preserves (((s.loseHead h c).stopForLoss wasActive).settleChange) :=
  ((State.Steady.of_footing (by simp)).trans (.stopForLoss _ _)).preserves.trans (.settleChange _)

@[simp] theorem State.footing_reportNeedle (h : Nat) (w : RingWord) : (s.reportNeedle h w).footing = s.footing := rfl

theorem State.Preserves.superviseAnswer (h : Nat) (w : RingWord) : s.Preserves (s.superviseAnswer h w) := by
  unfold State.superviseAnswer
  refine (State.Preserves.of_footing (s.footing_reportNeedle h w)).trans ?_
  generalize s.reportNeedle h w = a
  dsimp only
  split
  · exact .loseAndSettle a h .board _
  · have watched : (((a.watchBobbin h w).watchMotion h w).watchTension h w).1.footing = a.footing := by
      rw [State.footing_watchTension, State.footing_watchMotion, State.footing_watchBobbin]
    have switched := (State.footing_watchSwitch _ h w).trans watched
    split
    · exact ((State.Steady.of_footing switched).trans (.applyPolicy _)).preserves
    · exact .of_footing switched

theorem State.Preserves.unicastAnswered (t : Transaction) (w : RingWord) : s.Preserves (s.unicastAnswered t w) := by
  unfold State.unicastAnswered
  dsimp only
  split
  · exact .refl s
  · split
    · exact .of_footing (s.footing_recoveryAnswered _ _)
    · have confirmed : s.Preserves ((s.putRingRecord t.request.head
          { s.ringRecord t.request.head with misses := 0 }).confirmNeedle t w) :=
        (State.Preserves.of_footing (State.footing_putRingRecord _ _ _)).trans (.confirmNeedle _ t w)
      split
      · exact confirmed
      · exact confirmed.trans (.superviseAnswer _ _ w)

theorem State.Preserves.ringAnswer (e : RingEnd) (w : RingWord) : s.Preserves (s.ringAnswer e w) := by
  unfold State.ringAnswer
  split
  · exact .refl s
  · next t _ =>
    split
    · exact .refl s
    · dsimp only
      refine (State.Preserves.of_footing (s.footing_withRing { s.ring with flight := none })).trans ?_
      generalize s.withRing { s.ring with flight := none } = u
      split
      · exact .refl u
      · split
        · exact .of_footing u.footing_assignAnswered
        · exact .unicastAnswered u t w

theorem State.Preserves.thirdMiss (h : Nat) : s.Preserves (s.thirdMiss h) := by
  unfold State.thirdMiss
  dsimp only
  split
  · exact .of_footing (by simp)
  · exact (State.Preserves.of_footing (State.footing_putRingRecord _ _ _)).trans (.loseAndSettle _ h .ring _)

theorem State.Preserves.unicastMissed (t : Transaction) : s.Preserves (s.unicastMissed t) := by
  unfold State.unicastMissed
  dsimp only
  split
  · exact .refl s
  · split
    · exact .of_footing (by simp)
    · refine (State.Preserves.of_footing (s.footing_requeueMissed t)).trans ?_
      generalize s.requeueMissed t = u
      split
      · exact .thirdMiss u _
      · exact .of_footing (by simp)

theorem State.Preserves.ringTimeout : s.Preserves s.ringTimeout := by
  unfold State.ringTimeout
  split
  · exact .refl s
  · next t _ =>
    split
    · exact .refl s
    · dsimp only
      refine (State.Preserves.of_footing (s.footing_withRing { s.ring with flight := none })).trans ?_
      generalize s.withRing { s.ring with flight := none } = u
      split
      · exact .refl u
      · split
        · exact .of_footing u.footing_assignMissed
        · exact .unicastMissed u t

/-! ### Halts (chapters 4 and 5) -/

variable {s} in
/-- The run enters FAULT from a plain state: the armed slot may become DAMAGED, and the mode is kept. -/
theorem State.Steady.enterFault (p : s.run.state.plain = true) : s.Steady s.enterFault := by
  simp only [State.enterFault]
  have entered : s.Steady (s.setRunState .fault) := .setRunState p rfl (by decide)
  split
  · exact (entered.trans (.damageSlot _ _)).trans (.of_footing (State.footing_post _ _ _ _))
  · exact entered.trans (.of_footing (State.footing_post _ _ _ _))


end Sys2Proof.Machine
end

section
/-! PROOF SUPPORT. Halts, walks, the arm trace and the slots under the laws of the store, the armed slot and the operations. -/

namespace Sys2Proof.Machine

open Sys2Proof

variable {s : State}

/-! ### Halts and reports (chapters 4 and 5) -/

/-- What follows FINISHED at an END halt leaves the footing: the stop reason, DESIGN_END, the outstanding-repairs flag and
REPAIR_DONE. -/
theorem State.Steady.finishAtEnd (p : s.run.state.plain = true) (running : Bool) : s.Steady (s.finishAtEnd running) := by
  have finished : ∀ t : State, t.footing = s.footing → s.Steady (t.setRunState .finished) := fun t e =>
    (State.Steady.of_footing e).trans (.setRunState (by rw [State.runState_of_footing e]; exact p) rfl (by decide))
  have closed : ∀ t u : State, t.footing = u.footing →
      (t.withRun { t.run with outstanding := decide (t.repairs ≠ []) }).footing = u.footing := fun t u e =>
    (State.footing_withRun rfl rfl).trans e
  unfold State.finishAtEnd
  extract_lets trimmed t u v ran w
  have trim : trimmed.footing = s.footing := by
    unfold trimmed
    split
    · rfl
    · exact s.footing_setRepairs _
  have reason : u.footing = t.footing := by
    unfold u
    split
    · exact State.footing_setStopReason _ _
    · rfl
  have outcome : w.footing = t.footing := closed v t ((State.footing_post _ _ _ _).trans reason)
  refine (finished trimmed trim).trans (.of_footing ?_)
  split
  · exact outcome
  · exact (State.footing_postRepairDone _ _).trans outcome

theorem State.Preserves.haltOutcome (p : s.run.state.plain = true) (t : Token) (running : Bool) :
    s.Preserves (s.haltOutcome t running) := by
  unfold State.haltOutcome
  split
  · exact .startChange _ _ fun law => law.rests p
  · have paused := State.Steady.setRunState (v := .paused) p rfl (by decide)
    dsimp only
    split
    · exact (paused.trans (.of_footing (by simp))).preserves
    · exact (paused.trans (.of_footing (by simp))).preserves
  · exact (State.Steady.finishAtEnd p running).preserves
  · have joined := s.footing_joinHeads
    split
    · exact .of_footing joined
    · have plain : s.joinHeads.run.state.plain = true := by rw [State.runState_of_footing joined]; exact p
      exact (((State.Steady.of_footing joined).trans (.setRunState (v := .paused) plain rfl (by decide))).trans
        (.of_footing (State.footing_postStopped _))).preserves
  · exact .refl s

theorem State.Preserves.resolveHalt (t : Token) : s.Preserves (s.resolveHalt t) := by
  unfold State.resolveHalt
  dsimp only
  refine (State.Preserves.of_footing (s.footing_withSeq { s.seq with haltFlag := false })).trans ?_
  generalize s.withSeq { s.seq with haltFlag := false } = u
  split
  · next e => exact .haltOutcome (by rw [e]; rfl) t true
  · next e =>
    have plain : u.run.state.plain = true := by rw [e]; rfl
    split
    · exact (State.Steady.enterFault plain).preserves
    · split
      · exact (State.Steady.finishRepair plain).preserves
      · exact .haltOutcome plain t false
  · exact .refl u

theorem State.Steady.stoppedOutcome : s.Steady s.stoppedOutcome := by
  unfold State.stoppedOutcome
  split
  · next e =>
    have plain : s.run.state.plain = true := by rw [e]; rfl
    refine .ite (.enterFault plain) (.ite (.finishRepair plain) ?_)
    exact (State.Steady.setRunState (v := .paused) plain rfl (by decide)).trans (.of_footing (State.footing_postStopped _))
  · next e =>
    exact (State.Steady.setRunState (v := .paused) (by rw [e]; rfl) rfl (by decide)).trans (.of_footing (by simp))
  · exact .refl s

theorem State.Preserves.comeToRest (halt : Option Token) : s.Preserves (s.comeToRest halt) := by
  have rolled := State.Steady.of_footing s.footing_rollback
  unfold State.comeToRest
  split
  · exact rolled.preserves.trans (.resolveHalt _)
  · exact (rolled.trans .stoppedOutcome).preserves

theorem State.Preserves.doneReport (seq : Nat) : s.Preserves (s.doneReport seq) := by
  unfold State.doneReport
  split
  · next n _ =>
    refine State.Preserves.trans ?_ (.of_footing (State.footing_reportReply _ _))
    have completed := (State.Steady.completeReport s n).preserves
    unfold State.takeDone
    dsimp only
    split
    · exact completed.trans (.comeToRest _)
    · exact completed
  · exact .of_footing (by simp)

theorem State.Preserves.stoppedReport (form seq : Nat) : s.Preserves (s.stoppedReport form seq) := by
  unfold State.stoppedReport
  split
  · next n _ =>
    exact ((State.Steady.completeReport s n).preserves.trans (.comeToRest _)).trans
      (.of_footing (State.footing_reportReply _ _))
  · exact .of_footing (by simp)

/-! ### Walks (chapter 6) -/

/-- A walk handed over keeps the design. -/
theorem State.KeepsDesign.takeWalk (s : State) (w : WalkRecord) : s.KeepsDesign (s.takeWalk w) where
  store := id
  pool := rfl
  scan := rfl
  armedSlot := rfl
  idle e := by
    rw [State.takeWalk_eq] at e
    simp only [State.withSeq_run, State.withRun_run] at e
    split at e <;> cases e
  slots _ := .refl _

/-- The state of the run after a walk is FINISHED or PAUSED. -/
theorem State.plain_takeWalk (s : State) (w : WalkRecord) : (s.takeWalk w).run.state.plain = true := by
  rw [State.takeWalk_eq]
  simp only [State.withSeq_run, State.withRun_run]
  split <;> rfl

/-- What follows the handover at the end of a walk keeps the design and the mode. -/
theorem State.Steady.endWalk_of_takeWalk (s : State) (w : WalkRecord) (cause : WalkEnd) :
    ((s.dropRead .walk).takeWalk w).Steady (s.endWalk w cause) := by
  have plain := (s.dropRead .walk).plain_takeWalk w
  unfold State.endWalk
  extract_lets taken skipped placed
  change taken.run.state.plain = true at plain
  have skip : skipped.footing = taken.footing := State.footing_foldl _ (fun t h => by simp) _
  have place : placed.footing = taken.footing := by
    unfold placed
    split
    · exact skip
    · exact (State.footing_placeAll _).trans skip
  have posted := (placed.footing_post .walkDone 0 (walkParam w.cursor cause)).trans place
  refine (State.Steady.of_footing posted).trans ?_
  unfold State.finishEmptied
  refine .ite (.finishRepair ?_) (.refl _)
  rw [State.runState_of_footing posted]
  exact plain

theorem State.KeepsDesign.endWalk (s : State) (w : WalkRecord) (cause : WalkEnd) : s.KeepsDesign (s.endWalk w cause) :=
  ((State.KeepsDesign.of_footing (s.footing_dropRead .walk)).trans (.takeWalk _ w)).trans
    (State.Steady.endWalk_of_takeWalk s w cause).1

/-- Where neither a change nor a trace is in progress the end of a walk leaves the run at rest. -/
theorem State.rests_endWalk (w : WalkRecord) (cause : WalkEnd) (change : s.change.isSome = false)
    (trace : s.trace.isSome = false) : (s.endWalk w cause).Rests := by
  have dropped := State.KeepsMode.of_footing (s.footing_dropRead .walk)
  have taken : ((s.dropRead .walk).takeWalk w).Rests :=
    ⟨dropped.change.trans change, rfl, dropped.trace.trans trace, State.plain_takeWalk _ w⟩
  exact (State.Steady.endWalk_of_takeWalk s w cause).2.rests taken

/-- A walk in WALKING that goes on, or ends. -/
theorem State.Preserves.advanceWalk (w : WalkRecord)
    (m : s.operationsMatch → s.run.state = .walking ∧ s.change.isSome = false ∧ s.trace.isSome = false) :
    s.Preserves (s.advanceWalk w) := by
  unfold State.advanceWalk
  split
  · refine .of_design (.endWalk s w _) fun law => ?_
    obtain ⟨-, change, trace⟩ := m law
    exact (State.rests_endWalk w _ change trace).operationsMatch
  · refine State.Preserves.trans (.of_design (.withWalk s (some w)) fun law => ?_)
      (.of_footing (State.footing_askRead _ _ _))
    obtain ⟨state, change, trace⟩ := m law
    simp [State.operationsMatch, state, change, trace]

/-- A walk that starts from a plain state. -/
theorem State.Preserves.startWalk (p : s.run.state.plain = true) (requester : WalkRequester) (mode : WalkMode) (goal : Nat)
    (direction : WalkDirection) : s.Preserves (s.startWalk requester mode goal direction) := by
  unfold State.startWalk
  generalize hw : WalkRecord.mk requester mode goal direction s.run.cursor s.run.design s.run.colourBlock 0 [] false = w
  have walking := State.KeepsDesign.setRunState s (v := .walking) (by decide)
  have mode : s.operationsMatch → (s.setRunState .walking).change.isSome = false ∧
      (s.setRunState .walking).trace.isSome = false := fun law => by
    obtain ⟨change, -, trace, -⟩ := law.rests p
    have kept := State.KeepsMode.of_footing (s.footing_setRunState .walking)
    exact ⟨kept.change.trans change, kept.trace.trans trace⟩
  unfold State.advanceWalk
  split
  · refine .of_design (walking.trans (.endWalk _ w _)) fun law => ?_
    obtain ⟨change, trace⟩ := mode law
    exact (State.rests_endWalk w _ change trace).operationsMatch
  · refine State.Preserves.trans (.of_design (walking.trans (.withWalk _ (some w))) fun law => ?_)
      (.of_footing (State.footing_askRead _ _ _))
    obtain ⟨change, trace⟩ := mode law
    simp [State.operationsMatch, change, trace]

theorem State.Preserves.walkToIndex (p : s.run.state.plain = true) (requester : WalkRequester) (i : Nat) :
    s.Preserves (s.walkToIndex requester i) := .startWalk p _ _ _ _

theorem State.Preserves.walkRun (mode n : Nat) : s.Preserves (s.walkRun mode n) := by
  unfold State.walkRun
  split
  · exact .of_footing (by simp)
  · next m _ =>
    split
    · exact .of_footing (by simp)
    · split
      · exact .of_footing (by simp)
      · split
        · exact .of_footing (by simp)
        · next resting =>
          have plain : s.run.state.plain = true := by
            rw [RunState.plain_iff]
            refine ⟨?_, ?_, ?_⟩ <;> (intro e; simp [e] at resting)
          refine State.Preserves.trans ?_ (.of_footing (State.footing_reply _ _ _ _))
          unfold State.beginWalk
          split
          · exact .startWalk plain _ _ _ _
          · exact .startWalk plain _ _ _ _
          · exact .walkToIndex plain _ _
          · exact .startWalk plain _ _ _ _

theorem State.Preserves.repairRun : s.Preserves s.repairRun := by
  unfold State.repairRun
  split
  · exact .of_footing (by simp)
  · split
    · exact .of_footing (by simp)
    · next resting =>
      split
      · exact .of_footing (by simp)
      · have plain : s.run.state.plain = true := by
          rw [RunState.plain_iff]
          refine ⟨?_, ?_, ?_⟩ <;> (intro e; simp [e] at resting)
        refine State.Preserves.trans ?_ (.of_footing (State.footing_reply _ _ _ _))
        unfold State.takeRepair
        have begun : ((s.withRun { s.run with pass := .repair, outstanding := false }).withRepairs
            (s.repairs.map fun e => { e with sewing := false, deferred := none })).footing = s.footing := rfl
        refine (State.Preserves.of_footing begun).trans ?_
        exact State.Preserves.walkToIndex (by rw [State.runState_of_footing begun]; exact plain) _ _

theorem State.Preserves.walkReadDone : s.Preserves s.walkReadDone := by
  unfold State.walkReadDone
  split
  · next read _ _ _ =>
    have done := State.Steady.readChunk s read.chunk
    split
    next t result e =>
      rw [e] at done
      dsimp only
      refine (done.trans (.of_footing (t.footing_endAccess .walk))).preserves.trans ?_
      generalize t.endAccess .walk = u
      split
      · next w walking _ =>
        have m : u.operationsMatch → u.run.state = .walking ∧ u.change.isSome = false ∧ u.trace.isSome = false :=
          fun law => law.of_walk (by simp [walking])
        split
        · unfold State.walkRecord
          split
          · refine .of_design (.endWalk u _ _) fun law => ?_
            obtain ⟨-, change, trace⟩ := m law
            exact (State.rests_endWalk _ _ change trace).operationsMatch
          · exact .advanceWalk _ m
        · unfold State.walkFault
          dsimp only
          have faulted := ((State.Steady.of_footing (u.footing_recordFault .walk (some (walkCommand w.requester))
            (u.run.armedSlot.getD 0) (read.index - read.index % 4) .memory)).trans
              (.damageSlot _ (u.run.armedSlot.getD 0))).trans
                (.of_footing (State.footing_post _ .memoryFault 0 (chunkParam read.chunk)))
          refine .of_design (faulted.1.trans (.endWalk _ _ _)) fun law => ?_
          obtain ⟨-, change, trace⟩ := m law
          exact (State.rests_endWalk _ _ (faulted.2.change.trans change) (faulted.2.trace.trans trace)).operationsMatch
      · exact .refl u
  · exact .refl s

end Sys2Proof.Machine
end

section
/-! PROOF SUPPORT. The operations on slots and on the arming of one: OPEN_DESIGN, DELETE, CLOSE_DESIGN with its scan, ARM with
its trace, DISARM; what each makes of the blocks, of the armed slot and of the mode. -/

namespace Sys2Proof.Machine

open Sys2Proof

variable {s t : State}

/-! ### One slot record rewritten -/

/-- A slot that is neither READY nor DAMAGED is not armed. -/
theorem State.armedOnce.unarmed {k : Nat} (law : s.armedOnce) (ready : (s.slot k).state ≠ .ready)
    (damaged : (s.slot k).state ≠ .damaged) : (s.slot k).armed = false := by
  obtain ⟨-, kept, -, -⟩ := law
  by_contra armed
  rcases kept k (by simpa using armed) with e | e
  · exact ready e
  · exact damaged e

/-- An unarmed slot rewritten as an unarmed one, with the scan as it was or absent or of that slot, which is CLOSING. -/
theorem State.armedOnce_putSlot {k : Nat} {r : SlotRecord} {v : Option CloseScan} (law : s.armedOnce)
    (was : (s.slot k).armed = false) (is : r.armed = false)
    (scan : ∀ c, v = some c → if c.slot = k then r.state = .closing else s.scan = some c) :
    ((s.putSlot k r).withScan v).armedOnce := by
  obtain ⟨one, kept, idle, closing⟩ := law
  have slot : ∀ j, ((s.putSlot k r).withScan v).slot j = if j = k then r else s.slot j := fun j =>
    s.slot_putSlot k j r
  refine ⟨fun j => ?_, fun j => ?_, idle, fun c e => ?_⟩
  · rw [slot]
    show _ ↔ s.run.armedSlot = some j
    split
    · next e =>
      subst e
      have other : s.run.armedSlot ≠ some j := fun named => by
        rw [← one, was] at named; cases named
      simpa [is] using other
    · exact one j
  · rw [slot]
    split
    · intro armed; rw [is] at armed; cases armed
    · exact kept j
  · rw [slot]
    have known := scan c e
    split
    · next here => rwa [if_pos here] at known
    · next other => rw [if_neg other] at known; exact closing c known

/-- A slot record rewritten with its blocks, EMPTY only where it was, keeps the blocks. -/
theorem State.KeepsBlocks.putSlot {k : Nat} {r : SlotRecord} (map : r.blockMap = (s.slot k).blockMap)
    (empty : r.state = .empty → (s.slot k).state = .empty) : s.KeepsBlocks (s.putSlot k r) where
  store := State.storeCanonical_congr rfl
  pool := rfl
  maps j := by
    rw [State.slot_putSlot]
    split
    · next e => exact e ▸ map
    · rfl
  empty j := by
    rw [State.slot_putSlot]
    split
    · next e => exact e ▸ empty
    · exact id

theorem State.KeepsBlocks.withScan (s : State) (v : Option CloseScan) : s.KeepsBlocks (s.withScan v) :=
  ⟨id, rfl, fun _ => rfl, fun _ => id⟩

/-- What keeps the blocks, the law of the armed slot and the mode preserves the four laws. -/
theorem State.Preserves.of_blocks (h : s.KeepsBlocks t) (a : s.armedOnce → t.armedOnce) (m : s.KeepsMode t) :
    s.Preserves t := ⟨h.store, h.blocksAccounted, a, m.operationsMatch⟩

/-! ### OPEN_DESIGN and DELETE: blocks taken from the pool and returned to it (R9, R10, R25, R37) -/

/-- Lists joined over numbers below `n`, of which two families agree but at `k`. -/
theorem flatMap_range_perm {f g : Nat → List Nat} {k n : Nat} (below : k < n) (same : ∀ j, j ≠ k → g j = f j) :
    ∃ rest, ((List.range n).flatMap f).Perm (f k ++ rest) ∧ ((List.range n).flatMap g).Perm (g k ++ rest) := by
  have front : (List.range n).Perm (k :: (List.range n).erase k) := List.perm_cons_erase (List.mem_range.mpr below)
  refine ⟨((List.range n).erase k).flatMap f, front.flatMap_right f, ?_⟩
  have agree : ((List.range n).erase k).flatMap f = ((List.range n).erase k).flatMap g := by
    refine List.flatMap_congr fun j hj => (same j ?_).symm
    rintro rfl
    exact List.nodup_range.not_mem_erase hj
  rw [agree]
  exact front.flatMap_right g

/-- The blocks held before and after one slot record is rewritten, the others' blocks taken out. -/
theorem State.heldBlocks_putSlot {k : Nat} (below : k ≤ 15) (r : SlotRecord) (slots : t.slots = (s.putSlot k r).slots) :
    ∃ rest, s.heldBlocks.Perm ((s.slot k).blockMap ++ rest) ∧ t.heldBlocks.Perm (r.blockMap ++ rest) := by
  have slot : ∀ j, t.slot j = if j = k then r else s.slot j := fun j => by
    rw [State.slot_congr slots j, State.slot_putSlot]
  obtain ⟨rest, before, after⟩ := flatMap_range_perm (f := fun j => (s.slot j).blockMap)
    (g := fun j => (t.slot j).blockMap) (k := k) (n := 16) (by omega) (fun j ne => by simp [slot, ne])
  refine ⟨rest, before, ?_⟩
  rw [slot k, if_pos rfl] at after
  exact after

theorem poolInsert_sorted {b : Nat} {l : List Nat} (h : l.Pairwise (· < ·)) (new : b ∉ l) :
    (poolInsert b l).Pairwise (· < ·) := by
  induction l with
  | nil => simp [poolInsert]
  | cons a rest ih =>
    rw [List.pairwise_cons] at h
    obtain ⟨first, others⟩ := h
    rw [List.mem_cons, not_or] at new
    obtain ⟨ne, rest_new⟩ := new
    unfold poolInsert
    split
    · next le =>
      have lt : b < a := by omega
      refine List.pairwise_cons.mpr ⟨fun x hx => ?_, List.pairwise_cons.mpr ⟨first, others⟩⟩
      rcases List.mem_cons.mp hx with rfl | hx
      · exact lt
      · exact lt.trans (first x hx)
    · next gt =>
      refine List.pairwise_cons.mpr ⟨fun x hx => ?_, ih others rest_new⟩
      rcases List.mem_cons.mp ((poolInsert_perm b rest).mem_iff.mp hx) with rfl | hx
      · omega
      · exact first x hx

/-- Blocks that stand neither in the pool nor twice among themselves are returned to a rising pool. -/
theorem foldl_poolInsert_sorted {blocks pool : List Nat} (rising : pool.Pairwise (· < ·)) (new : (blocks ++ pool).Nodup) :
    (blocks.foldl (fun p b => poolInsert b p) pool).Pairwise (· < ·) := by
  induction blocks generalizing pool with
  | nil => exact rising
  | cons b rest ih =>
    have front : (b :: rest ++ pool).Perm (rest ++ poolInsert b pool) :=
      (List.perm_middle.symm).trans ((poolInsert_perm b pool).symm.append_left rest)
    refine ih (poolInsert_sorted rising fun mem => ?_) (front.nodup_iff.mp new)
    exact (List.nodup_cons.mp new).1 (List.mem_append_right _ mem)

/-- OPEN_DESIGN moves the lowest free blocks from the pool into an EMPTY slot. -/
theorem State.Preserves.openSlot {slot : Nat} (len : Nat) (below : slot ≤ 15) (was : (s.slot slot).state = .empty) :
    s.Preserves ((s.allocate len).1.putSlot slot (openedSlot len (s.allocate len).2)) := by
  have canonical := State.storeCanonical_allocate (s := s) len
  obtain ⟨st, e⟩ := s.allocate_eq len
  rw [e] at canonical ⊢
  refine ⟨fun law => canonical law, fun law => ?_, fun law => ?_, ?_⟩
  · obtain ⟨perm, rising, none⟩ := law
    obtain ⟨rest, before, after⟩ := State.heldBlocks_putSlot (s := s)
      (t := ((s.withStore st).withPool (s.pool.drop (blocksFor len))).putSlot slot
        (openedSlot len (s.pool.take (blocksFor len)))) below (openedSlot len (s.pool.take (blocksFor len))) rfl
    rw [none slot was, List.nil_append] at before
    refine ⟨?_, rising.drop, fun k => ?_⟩
    · have moved : (s.pool.drop (blocksFor len) ++ (s.pool.take (blocksFor len) ++ rest)).Perm (s.pool ++ rest) := by
        rw [← List.append_assoc]
        refine (List.perm_append_comm.append_right rest).trans ?_
        rw [List.take_append_drop]
      exact ((after.append_left _).trans moved).trans ((before.symm.append_left _).trans perm)
    · rw [State.slot_putSlot]
      split
      · intro opened; cases opened
      · exact none k
  · have unarmed := law.unarmed (k := slot) (by simp [was]) (by simp [was])
    refine State.armedOnce_putSlot (s := (s.withStore st).withPool (s.pool.drop (blocksFor len)))
      (r := openedSlot len (s.pool.take (blocksFor len))) (v := s.scan) law unarmed rfl fun c scanned => ?_
    split
    · next here =>
      obtain ⟨-, -, -, closing⟩ := law
      rw [← here, closing c scanned] at was; cases was
    · exact scanned
  · exact (State.KeepsMode.mk rfl rfl rfl (.inl rfl)).operationsMatch

theorem State.Preserves.openDesign (slot len : Nat) : s.Preserves (s.openDesign slot len) := by
  unfold State.openDesign
  split
  · exact .of_footing (by simp)
  · next below =>
    split
    · exact .of_footing (by simp)
    · next was =>
      split
      · exact .of_footing (by simp)
      · split
        · exact .of_footing (by simp)
        · exact (State.Preserves.openSlot len (by omega) (by simpa using was)).trans
            (.of_footing (State.footing_reply _ _ _ _))

/-- DELETE returns the blocks of a slot to the pool and leaves it EMPTY. -/
theorem State.Preserves.emptySlot {slot : Nat} (below : slot ≤ 15) (armed : (s.slot slot).armed = false)
    (scanned : (s.slot slot).state ≠ .closing) :
    s.Preserves ((s.release (s.slot slot).blockMap).putSlot slot SlotRecord.reset) := by
  refine ⟨State.storeCanonical_congr rfl, fun law => ?_, fun law => ?_, ?_⟩
  · obtain ⟨perm, rising, none⟩ := law
    obtain ⟨rest, before, after⟩ := State.heldBlocks_putSlot (s := s)
      (t := (s.release (s.slot slot).blockMap).putSlot slot SlotRecord.reset) below SlotRecord.reset rfl
    obtain ⟨p, e, returned⟩ := s.release_eq (s.slot slot).blockMap
    have pool : p = (s.slot slot).blockMap.foldl (fun p b => poolInsert b p) s.pool := (congrArg State.pool e).symm
    have all : ((s.slot slot).blockMap ++ s.pool ++ rest).Perm (List.range 512) := by
      refine (List.perm_append_comm.append_right rest).trans ?_
      rw [List.append_assoc]
      exact (before.symm.append_left s.pool).trans perm
    have new : ((s.slot slot).blockMap ++ s.pool).Nodup :=
      (all.nodup_iff.mpr List.nodup_range).sublist (List.sublist_append_left _ _)
    refine ⟨?_, foldl_poolInsert_sorted rising new, fun k => ?_⟩
    · have both := (pool ▸ returned).append after
      exact both.trans all
    · rw [State.slot_putSlot]
      split
      · intro _; rfl
      · exact none k
  · refine State.armedOnce_putSlot (s := s.release (s.slot slot).blockMap) (r := SlotRecord.reset) (v := s.scan) law armed
      rfl fun c present => ?_
    split
    · next here =>
      obtain ⟨-, -, -, closing⟩ := law
      exact absurd (here ▸ closing c present) scanned
    · exact present
  · exact (State.KeepsMode.mk rfl rfl rfl (.inl rfl)).operationsMatch

theorem State.Preserves.deleteSlot (slot : Nat) : s.Preserves (s.deleteSlot slot) := by
  unfold State.deleteSlot
  dsimp only
  split
  · exact .of_footing (by simp)
  · next below =>
    split
    · exact .of_footing (by simp)
    · next armed =>
      split
      · exact .of_footing (by simp)
      · split
        · exact .of_footing (by simp)
        · next scanned =>
          split
          · exact .of_footing (by simp)
          · exact (State.Preserves.emptySlot (by omega) (by simpa using armed) scanned).trans
              (.of_footing (State.footing_reply _ _ _ _))

/-! ### CLOSE_DESIGN and the close scan (R32 to R34) -/

theorem State.Preserves.closeDesign (slot : Nat) : s.Preserves (s.closeDesign slot) := by
  unfold State.closeDesign
  split
  · exact .of_footing (by simp)
  · split
    · exact .of_footing (by simp)
    · split
      · exact .of_footing (by simp)
      · next loading =>
        split
        · exact .of_footing (by simp)
        · extract_lets c src t
          have state : (s.slot slot).state = .loading := by simpa using loading
          have begun : s.Preserves t := by
            have blocks : s.KeepsBlocks t :=
              (State.KeepsBlocks.putSlot (r := { s.slot slot with state := .closing }) rfl nofun).trans (.withScan _ _)
            refine .of_blocks blocks (fun law => ?_) ⟨rfl, rfl, rfl, .inl rfl⟩
            have unarmed := law.unarmed (k := slot) (by simp [state]) (by simp [state])
            refine State.armedOnce_putSlot law unarmed unarmed fun d e => ?_
            obtain rfl : c = d := by simpa using e
            exact if_pos rfl ▸ rfl
          exact begun.trans (.of_footing ((State.footing_reply _ _ _ _).trans (State.footing_askRead _ _ _)))

end Sys2Proof.Machine
end

section
/-! PROOF SUPPORT. The end of a close scan, ARM and its trace, STOP, DISARM and reset under the four laws. -/

namespace Sys2Proof.Machine

open Sys2Proof

variable {s t : State}

/-! ### The end of a close scan read (R33, R34) -/

/-- The examination of records never leaves the slot of its scan. -/
theorem scanRecord_slot {len : Nat} {c d : CloseScan} {r : StitchRecord} (h : scanRecord len c r = .inl d) :
    d.slot = c.slot := by
  unfold scanRecord at h
  dsimp only at h
  split at h
  · cases h
  · split at h
    · cases h
    · split at h
      · split at h <;> cases h; rfl
      · split at h <;> cases h; rfl
      · split at h <;> cases h; rfl
      · cases h; rfl

theorem scanRecords_slot (len : Nat) (c : CloseScan) (rs : List StitchRecord) : (scanRecords len c rs).1.slot = c.slot := by
  induction rs generalizing c with
  | nil => rfl
  | cons r rest ih =>
    unfold scanRecords
    split
    · rfl
    · split
      · next d e => rw [ih, scanRecord_slot e]
      · rfl

/-- The slot of a scan that ends, rewritten with its blocks and unarmed: LOADING, DAMAGED or READY. -/
theorem State.Preserves.endScan {k : Nat} {r : SlotRecord} {c : CloseScan} (scan : s.scan = some c) (here : c.slot = k)
    (map : r.blockMap = (s.slot k).blockMap) (armed : r.armed = (s.slot k).armed) (live : r.state ≠ .empty) :
    s.Preserves ((s.withScan none).putSlot k r) := by
  have blocks : s.KeepsBlocks ((s.putSlot k r).withScan none) :=
    (State.KeepsBlocks.putSlot map fun e => absurd e live).trans (.withScan _ none)
  refine .of_blocks blocks (fun law => ?_) ⟨rfl, rfl, rfl, .inl rfl⟩
  have closing : (s.slot k).state = .closing := by
    obtain ⟨-, -, -, closing⟩ := law
    exact here ▸ closing c scan
  have unarmed := law.unarmed (k := k) (by simp [closing]) (by simp [closing])
  exact State.armedOnce_putSlot law unarmed (armed.trans unarmed) fun _ e => by cases e

theorem State.Preserves.failScan {c d : CloseScan} (scan : s.scan = some d) (here : d.slot = c.slot) (cause : CloseCause)
    (index : Nat) : s.Preserves (s.failScan c cause index) := by
  unfold State.failScan
  extract_lets v record t
  have live : v ≠ .empty := by unfold v; split <;> decide
  have ended : s.Preserves t := .endScan (r := { s.slot c.slot with state := v }) scan here rfl rfl live
  exact ended.trans (.of_footing (State.footing_post _ _ _ _))

theorem State.Preserves.passScan {c d : CloseScan} (scan : s.scan = some d) (here : d.slot = c.slot) :
    s.Preserves (s.passScan c) := by
  unfold State.passScan
  extract_lets record t
  have ended : s.Preserves t := .endScan (r := { s.slot c.slot with
    state := .ready, colourCount := c.colours, stitchCount := c.stitches, extents := c.extents }) scan here rfl rfl nofun
  exact ended.trans (.of_footing (State.footing_post _ _ _ _))

/-- A scan that goes on in its slot. -/
theorem State.Preserves.continueScan {c d : CloseScan} (scan : s.scan = some c) (here : d.slot = c.slot) :
    s.Preserves (s.withScan (some d)) := by
  refine .of_blocks (.withScan s _) (fun law => ?_) ⟨rfl, rfl, rfl, .inl rfl⟩
  obtain ⟨one, kept, idle, closing⟩ := law
  refine ⟨one, kept, idle, fun e h => ?_⟩
  obtain rfl : d = e := by simpa using h
  exact here ▸ closing c scan

theorem State.Preserves.scanChunk {c : CloseScan} (scan : s.scan = some c) (chunk : Chunk) (result : ReadResult) :
    s.Preserves (s.scanChunk c chunk result) := by
  unfold State.scanChunk
  dsimp only
  split
  · exact .failScan scan rfl _ _
  · split
    · have faulted := s.footing_recordFault .closeScan (some .closeDesign) c.slot c.index .memory
      obtain ⟨-, -, -, scanned, -⟩ := State.footing_iff.mp faulted
      exact (State.Preserves.of_footing faulted).trans (.failScan (scanned.trans scan) rfl _ _)
    · next rs _ =>
      have slot := scanRecords_slot (s.slot c.slot).length c rs
      split
      · next e => rw [e] at slot; exact .failScan scan slot.symm _ _
      · next e =>
        rw [e] at slot
        split
        · exact .passScan scan slot.symm
        · exact .continueScan scan slot

theorem State.Preserves.closeScanReadDone : s.Preserves s.closeScanReadDone := by
  unfold State.closeScanReadDone
  split
  · next read _ _ _ =>
    have done := State.Steady.readChunk s read.chunk
    split
    next t result e =>
      rw [e] at done
      dsimp only
      refine (done.trans (.of_footing (t.footing_endAccess .closeScan))).preserves.trans ?_
      generalize t.endAccess .closeScan = u
      split
      · next c scan _ => exact .scanChunk scan _ _
      · exact .refl u
  · exact .refl s

/-! ### ARM (R60, R61) -/

/-- ARM taken in IDLE: the one slot armed is the one it names, READY, and the arm trace is in progress. -/
theorem State.Preserves.takeArm {slot : Nat} (idle : s.run.state = .idle) (ready : (s.slot slot).state = .ready)
    (tr : Transform) (now : Point) : s.Preserves (s.takeArm slot tr now) := by
  unfold State.takeArm
  extract_lets r ran a b trace c
  have stored : (a.withSeq (armedSequencer now)).footing = a.footing := rfl
  have queued : b.footing = a.footing := (State.footing_withQueue _ _).trans ((State.footing_dropRead _ _).trans stored)
  have traced : c.footing = (a.withTrace (some trace)).footing := State.footing_withTrace_congr queued (some trace)
  refine State.Preserves.trans ?_ (.of_footing ((State.footing_askRead _ _ _).trans traced))
  have slots : ∀ k, (a.withTrace (some trace)).slot k = if k = slot then { s.slot slot with armed := true } else s.slot k :=
    fun k => s.slot_putSlot slot k _
  have blocks : s.KeepsBlocks (a.withTrace (some trace)) := by
    refine ⟨State.storeCanonical_congr rfl, rfl, fun k => ?_, fun k => ?_⟩
    · rw [slots]; split
      · next e => rw [e]
      · rfl
    · rw [slots]; split
      · next e => rw [e]; exact id
      · exact id
  refine ⟨blocks.store, blocks.blocksAccounted, fun law => ?_, fun law => ?_⟩
  · obtain ⟨one, kept, unarmed, closing⟩ := law
    have none := unarmed idle
    have arming : (a.withTrace (some trace)).run.state ≠ .idle := nofun
    refine ⟨fun k => ?_, fun k => ?_, fun e => absurd e arming, fun d scanned => ?_⟩
    · rw [slots]
      show _ ↔ some slot = some k
      split
      · next e => simp [e]
      · next e =>
        have other := one k
        rw [none] at other
        simp only [other, Option.some.injEq, reduceCtorEq, false_iff]
        exact fun h => e h.symm
    · rw [slots]; split
      · intro _; exact .inl ready
      · exact kept k
    · rw [slots]
      have was := closing d scanned
      split
      · next e => rw [e, ready] at was; cases was
      · exact was
  · obtain ⟨change, walk, -, -⟩ := law.rests (by rw [idle]; rfl)
    have change' : (a.withTrace (some trace)).change.isSome = false := change
    have walk' : (a.withTrace (some trace)).walk.isSome = false := walk
    have state : (a.withTrace (some trace)).run.state = .arming := rfl
    rw [State.operationsMatch, change', walk', state]
    exact ⟨⟨nofun, nofun⟩, ⟨nofun, nofun⟩, ⟨fun _ => rfl, fun _ => rfl⟩⟩

theorem State.Preserves.armRun (slot sx sy angle : Nat) (mirror : Bool) (ox oy nowX nowY : Nat) :
    s.Preserves (s.armRun slot sx sy angle mirror ox oy nowX nowY) := by
  unfold State.armRun
  dsimp only
  split
  · exact .of_footing (by simp)
  · split
    · exact .of_footing (by simp)
    · next idle =>
      split
      · exact .of_footing (by simp)
      · split
        · exact .of_footing (by simp)
        · next ready =>
          split
          · exact .of_footing (by simp)
          · split
            · exact .of_footing (by simp)
            · split
              · exact .of_footing (by simp)
              · exact (State.Preserves.takeArm (by simpa using idle) (by simpa using ready) _ _).trans
                  (.of_footing (State.footing_reply _ _ _ _))

/-! ### The armed slot released (R11, R62, R63, R73) -/

theorem State.releaseSlot_armedSlot (s : State) : s.releaseSlot.run.armedSlot = none := by
  obtain ⟨q, e⟩ := s.releaseSlot_eq
  rw [e]; rfl

/-- The slots after the release: the armed one without its armed flag, every other as it was. -/
theorem State.slot_releaseSlot (s : State) (k : Nat) : s.releaseSlot.slot k =
    if s.run.armedSlot = some k then { s.slot k with armed := false } else s.slot k := by
  unfold State.releaseSlot
  cases named : s.run.armedSlot with
  | none => rfl
  | some j =>
    show (s.putSlot j { s.slot j with armed := false }).slot k = _
    rw [State.slot_putSlot]
    simp only [Option.some.injEq, eq_comm]
    split
    · next e => rw [e]
    · rfl

theorem State.KeepsBlocks.releaseSlot (s : State) : s.KeepsBlocks s.releaseSlot := by
  have slot := s.slot_releaseSlot
  have maps : ∀ k, (s.releaseSlot.slot k).blockMap = (s.slot k).blockMap ∧
      (s.releaseSlot.slot k).state = (s.slot k).state := by
    intro k
    rw [slot]
    split <;> exact ⟨rfl, rfl⟩
  obtain ⟨q, e⟩ := s.releaseSlot_eq
  exact ⟨State.storeCanonical_congr (by rw [e]; rfl), by rw [e]; rfl, fun k => (maps k).1,
    fun k h => (maps k).2 ▸ h⟩

theorem State.armedOnce.releaseSlot (law : s.armedOnce) : s.releaseSlot.armedOnce := by
  obtain ⟨one, kept, -, closing⟩ := law
  have none := s.releaseSlot_armedSlot
  have unarmed : ∀ k, (s.releaseSlot.slot k).armed = false := by
    intro k
    rw [State.slot_releaseSlot]
    split
    · rfl
    · next other => simpa using (one k).not.mpr other
  have scan : s.releaseSlot.scan = s.scan := by
    obtain ⟨q, e⟩ := s.releaseSlot_eq
    rw [e]; rfl
  refine ⟨fun k => by simp [unarmed, none], fun k h => ?_, fun _ => none, fun c e => ?_⟩
  · rw [unarmed] at h; cases h
  · rw [State.slot_releaseSlot]
    have was := closing c (scan ▸ e)
    split <;> exact was

/-- The operations in progress are not touched by the release. -/
theorem State.KeepsMode.releaseSlot (s : State) : s.KeepsMode s.releaseSlot := by
  obtain ⟨q, e⟩ := s.releaseSlot_eq
  rw [e]
  exact ⟨rfl, rfl, rfl, .inl rfl⟩

theorem State.KeepsBlocks.of_slots (store : t.store = s.store) (pool : t.pool = s.pool) (slots : t.slots = s.slots) :
    s.KeepsBlocks t :=
  ⟨State.storeCanonical_congr store, pool, fun k => by rw [State.slot_congr slots], fun k => by
    rw [State.slot_congr slots]; exact id⟩

/-- The run comes to IDLE once its slot has been released and no operation is in progress. -/
theorem State.Preserves.releaseToIdle {u : State} (before : s.KeepsDesign t)
    (quiet : s.operationsMatch → t.change.isSome = false ∧ t.walk.isSome = false ∧ t.trace.isSome = false)
    (after : u.footing = t.releaseSlot.footing) : s.Preserves (u.setRunState .idle) := by
  refine State.Preserves.trans (t := u.withRun { u.run with state := .idle }) ?_ (.of_footing (u.footing_setRunState .idle))
  obtain ⟨store, pool, slots, scan, armed, -, change, walk, trace⟩ := State.footing_iff.mp after
  have blocks : s.KeepsBlocks (u.withRun { u.run with state := .idle }) :=
    (before.keepsBlocks.trans (.releaseSlot t)).trans (.of_slots store pool slots)
  refine ⟨blocks.store, blocks.blocksAccounted, fun law => ?_, fun law => ?_⟩
  · exact State.armedOnce_of_unarmed (before.armedOnce law).releaseSlot t.releaseSlot_armedSlot slots scan armed
  · obtain ⟨noChange, noWalk, noTrace⟩ := quiet law
    have kept := State.KeepsMode.releaseSlot t
    have rests : (u.withRun { u.run with state := .idle }).Rests :=
      ⟨(change.trans kept.change).trans noChange, (walk.trans kept.walk).trans noWalk, (trace.trans kept.trace).trans noTrace, rfl⟩
    exact rests.operationsMatch

/-! ### The arm trace (R55, R62) -/

/-- With the trace gone no operation is in progress in ARMING. -/
theorem State.operationsMatch.of_traced {tr : ArmTrace} (law : s.operationsMatch) (tracing : s.trace = some tr) :
    s.change.isSome = false ∧ s.walk.isSome = false := by
  obtain ⟨-, change, walk⟩ := law.of_trace (by simp [tracing])
  exact ⟨change, walk⟩

theorem State.Preserves.passTrace {tr : ArmTrace} (tracing : s.trace = some tr) : s.Preserves s.passTrace := by
  unfold State.passTrace
  refine State.Preserves.trans (.of_design ((State.KeepsDesign.withTrace s none).trans
    (.setRunState _ (v := .armed) (by decide))) fun law => ?_) (.of_footing (State.footing_post _ _ _ _))
  obtain ⟨change, walk⟩ := law.of_traced tracing
  have rests : ((s.withTrace none).withRun { s.run with state := .armed }).Rests := ⟨change, walk, rfl, rfl⟩
  exact ((State.KeepsMode.of_footing (State.footing_setRunState _ _)).rests rests).operationsMatch

theorem State.Preserves.failTraceField {tr : ArmTrace} (tracing : s.trace = some tr) (index : Nat) (goal : Point) :
    s.Preserves (s.failTraceField index goal) := by
  refine State.Preserves.trans (.releaseToIdle (.withTrace s none) (fun law => ?_) rfl)
    (.of_footing (State.footing_postTarget _ _ _ _ _))
  obtain ⟨change, walk⟩ := law.of_traced tracing
  exact ⟨change, walk, rfl⟩

theorem State.Preserves.failTraceMemory {tr : ArmTrace} (tracing : s.trace = some tr) (first : Nat) :
    s.Preserves (s.failTraceMemory first) := by
  unfold State.failTraceMemory
  extract_lets slot t
  have faulted : s.Steady t := (State.Steady.of_footing (State.footing_recordFault _ _ _ _ _ _)).trans (.damageSlot _ _)
  refine State.Preserves.trans (.releaseToIdle (faulted.1.trans (.withTrace t none)) (fun law => ?_) rfl)
    (.of_footing (State.footing_post _ _ _ _))
  obtain ⟨change, walk⟩ := law.of_traced tracing
  exact ⟨faulted.2.change.trans change, faulted.2.walk.trans walk, rfl⟩

theorem State.Preserves.traceReadDone : s.Preserves s.traceReadDone := by
  unfold State.traceReadDone
  split
  · next read _ _ _ =>
    have done := State.Steady.readChunk s read.chunk
    split
    next t result e =>
      rw [e] at done
      dsimp only
      refine (done.trans (.of_footing (t.footing_endAccess .trace))).preserves.trans ?_
      generalize t.endAccess .trace = u
      split
      · next tr tracing _ =>
        unfold State.traceChunk
        split
        · exact .failTraceMemory tracing _
        · split
          · exact .failTraceField tracing _ _
          · split
            · exact .passTrace tracing
            · refine .of_design (.withTrace u _) fun law => ?_
              rw [State.operationsMatch, tracing] at law
              exact law
      · exact .refl u
  · exact .refl s

/-! ### STOP, DISARM and reset (R63, R65, R73, R173) -/

theorem State.Preserves.abortTrace (arming : s.run.state = .arming) : s.Preserves s.abortTrace := by
  refine .releaseToIdle (t := (s.withTrace none).dropRead .trace)
    ((State.KeepsDesign.withTrace s none).trans (.of_footing (State.footing_dropRead _ _))) (fun law => ?_) rfl
  obtain ⟨change, walk, -⟩ := law
  rw [arming] at change walk
  have kept := State.KeepsMode.of_footing ((s.withTrace none).footing_dropRead .trace)
  exact ⟨kept.change.trans (by simpa using change), kept.walk.trans (by simpa using walk), kept.trace⟩

theorem State.Preserves.stopRun (port : Port) : s.Preserves (s.stopRun port) := by
  unfold State.stopRun
  split
  · next running =>
    have stops := State.Steady.setRunState (s := s) (v := .stopping) (by rw [running]; rfl) rfl (by decide)
    exact (stops.trans (.of_footing (State.footing_setStopReason _ _))).preserves
  · exact .of_footing (by simp)
  · split
    · next w walking =>
      refine .of_design (.endWalk s w _) fun law => ?_
      obtain ⟨-, change, trace⟩ := law.of_walk (by simp [walking])
      exact (State.rests_endWalk _ _ change trace).operationsMatch
    · exact .refl s
  · next arming => exact .abortTrace arming
  · exact .refl s

theorem State.footing_returnHeads (s : State) : s.returnHeads.footing = s.footing :=
  s.footing_foldl (fun t h => by split <;> simp) _

theorem State.Preserves.takeDisarm (change : s.run.state ≠ .changing) (walk : s.run.state ≠ .walking) :
    s.Preserves s.takeDisarm := by
  unfold State.takeDisarm
  extract_lets a queue seq b c
  have design : s.KeepsDesign a := by
    unfold a
    split
    · exact (State.KeepsDesign.withTrace s none).trans (.of_footing (State.footing_dropRead _ _))
    · exact .of_footing rfl
  have mode : s.operationsMatch → a.change.isSome = false ∧ a.walk.isSome = false ∧ a.trace.isSome = false := by
    rintro ⟨changing, walking, tracing⟩
    have noChange : s.change.isSome = false := by simpa [change] using changing
    have noWalk : s.walk.isSome = false := by simpa [walk] using walking
    unfold a
    split
    · have kept := State.KeepsMode.of_footing ((s.withTrace none).footing_dropRead .trace)
      exact ⟨kept.change.trans noChange, kept.walk.trans noWalk, kept.trace⟩
    · next other => exact ⟨noChange, noWalk, by simpa [other] using tracing⟩
  have cleared : (b.setRepairs []).returnHeads.footing = a.footing :=
    (State.footing_returnHeads _).trans ((State.footing_setRepairs _ _).trans rfl)
  have quiet : s.operationsMatch → (b.setRepairs []).returnHeads.change.isSome = false ∧
      (b.setRepairs []).returnHeads.walk.isSome = false ∧ (b.setRepairs []).returnHeads.trace.isSome = false := by
    intro law
    obtain ⟨noChange, noWalk, noTrace⟩ := mode law
    have kept := State.KeepsMode.of_footing cleared
    exact ⟨kept.change.trans noChange, kept.walk.trans noWalk, kept.trace.trans noTrace⟩
  have released : c = (b.setRepairs []).returnHeads.releaseSlot := rfl
  clear_value c
  refine .releaseToIdle (design.trans (.of_footing cleared)) quiet ?_
  rw [← released]
  exact State.footing_withRun rfl rfl

theorem State.Preserves.disarmRun : s.Preserves s.disarmRun := by
  unfold State.disarmRun
  split
  case h_6 changing walking =>
    exact (State.Preserves.takeDisarm changing walking).trans (.of_footing (State.footing_reply _ _ _ _))
  all_goals exact .of_footing (by simp)

/-- The reset state meets the law of the blocks: every block is in the pool. -/
theorem State.blocksAccounted_reset : State.reset.blocksAccounted := by
  have held : State.reset.heldBlocks = [] := by
    unfold State.heldBlocks
    exact List.flatMap_eq_nil_iff.mpr fun k _ => rfl
  have pool : State.reset.pool = List.range 512 := by simp only [State.reset, Config.blocks]
  refine ⟨?_, pool ▸ List.pairwise_lt_range, fun k _ => rfl⟩
  rw [held, List.append_nil, pool]

theorem State.armedOnce_reset : State.reset.armedOnce :=
  ⟨fun _ => ⟨nofun, nofun⟩, fun _ => nofun, fun _ => rfl, fun _ => nofun⟩

theorem State.operationsMatch_reset : State.reset.operationsMatch := ⟨⟨nofun, nofun⟩, ⟨nofun, nofun⟩, ⟨nofun, nofun⟩⟩

/-- RESET leads to the reset state but for the ports and the waiting commands, whatever it finds. -/
theorem State.Preserves.to_reset (h : t.footing = State.reset.footing) : s.Preserves t := by
  have kept := State.Preserves.of_footing h
  exact ⟨fun _ => kept.store State.storeCanonical_reset, fun _ => kept.blocks State.blocksAccounted_reset,
    fun _ => kept.armed State.armedOnce_reset, fun _ => kept.mode State.operationsMatch_reset⟩

end Sys2Proof.Machine
end

section
/-! PROOF. O56 and O58: every step keeps the store canonical, the blocks accounted for, the one armed slot, and the operations
with their run states. -/

namespace Sys2Proof.Machine

open Sys2Proof

/-- Every command preserves the four laws. -/
theorem exec_preserves {c : Instr} {s t : State} (h : exec c s = .next t) : s.Preserves t := by
  cases c <;> cases h
  case openDesign slot len => exact .onFrame fun _ => .openDesign slot len
  case writeRecords slot index records => exact .onFrame fun u => (State.Steady.writeRecords u slot index records).preserves
  case readRecords slot index count => exact .onFrame fun u => (State.Steady.readRecords u slot index count).preserves
  case portStoreAccessDone => exact .onEvent (State.Steady.portAccessDone s).preserves
  case requestPauseExpiry r => exact .onEvent (.of_footing (s.footing_endPause r))
  case setColours slot first entries => exact .onFrame fun u => (State.Steady.setColours u slot first entries).preserves
  case readColours slot first count =>
    refine .onFrame fun u => .of_footing ?_
    unfold State.readColours
    split
    · simp
    · split <;> simp
  case readSlot slot =>
    refine .onFrame fun u => .of_footing ?_
    unfold State.readSlot
    split <;> simp
  case closeDesign slot => exact .onFrame fun _ => .closeDesign slot
  case closeScanReadDone => exact .onEvent .closeScanReadDone
  case delete slot => exact .onFrame fun _ => .deleteSlot slot
  case keep slot on => exact .onFrame fun u => (State.Steady.keepSlot u slot on).preserves
  case clearFaultRecord => exact .onFrame fun u => .of_footing (by simp)
  case arm => exact .onFrame fun _ => .armRun _ _ _ _ _ _ _ _ _
  case traceReadDone => exact .onEvent .traceReadDone
  case start => exact .onFrame fun u => .startRun u
  case stop port => exact .onFrame fun u => (State.Preserves.stopRun port).trans (.of_footing (State.footing_reply _ _ _ _))
  case disarm => exact .onFrame fun _ => .disarmRun
  case setSpeed value =>
    exact .onFrame fun u => .of_footing ((State.footing_reply _ _ _ _).trans (State.footing_withRun rfl rfl))
  case readRun => exact .onFrame fun u => .of_footing (by simp)
  case prepareTurn => exact .onEvent (.of_footing s.footing_prepareOne)
  case prepareReadDone => exact .onEvent (State.Steady.prepareReadDone s).preserves
  case fetchMoves max => exact .onFrame fun u => .of_footing (u.footing_fetchMoves max)
  case done seq => exact .onFrame fun _ => .doneReport seq
  case stopped form seq => exact .onFrame fun _ => .stoppedReport form seq
  case walk mode n => exact .onFrame fun _ => .walkRun mode n
  case walkReadDone => exact .onEvent .walkReadDone
  case repair => exact .onFrame fun _ => .repairRun
  case readRepairs first count =>
    refine .onFrame fun u => .of_footing ?_
    unfold State.readRepairs
    split <;> simp
  case broadcastSent => exact .onEvent (.of_footing s.footing_broadcastSent)
  case changeDeadline => exact .onEvent (.changeDeadline s)
  case setInhibit head needles => exact .onFrame fun u => .of_footing (u.footing_setInhibit head needles)
  case ringTransactionStart => exact .onEvent (.of_footing s.footing_ringTransactionStart)
  case ringAnswer e w => exact .onEvent (.ringAnswer s e w)
  case ringTimeout => exact .onEvent (.ringTimeout s)
  case ringStart => exact .onFrame fun u => .of_footing u.footing_startRing
  case headOff head => exact .onFrame fun u => .of_footing (u.footing_headOff head)
  case headOn head => exact .onFrame fun u => (State.Steady.headOn u head).preserves
  case readHeads first count =>
    refine .onFrame fun u => .of_footing ?_
    unfold State.readHeads
    split <;> simp
  case readEvents n =>
    refine .onFrame fun u => .of_footing ?_
    unfold State.readEvents
    split <;> simp
  case setClass kind log attend =>
    refine .onFrame fun u => .of_footing ?_
    unfold State.setClass
    split <;> simp
  case setTime value unit =>
    refine .onFrame fun u => .of_footing ?_
    unfold State.setTime
    split <;> simp
  case timeTagTick => exact .onEvent (.of_footing s.footing_timeTagTick)
  case setConstants record => exact .onFrame fun u => .of_footing (u.footing_setConstants record)
  case readConstants => exact .onFrame fun u => .of_footing (by simp)
  case readStatus port => exact .onFrame fun u => .of_footing (by simp)
  case readPortErrors port => exact .onFrame fun u => .of_footing (by simp)
  case nop port => exact .onFrame fun u => .of_footing (by simp)
  case identify port => exact .onFrame fun u => .of_footing (by simp)
  case frameError port error => exact .onFrame fun u => .of_footing (by simp)
  case reset => exact .to_reset (by simp)
  case frameAcceptReady => split <;> exact .of_footing rfl
  case storeBitChange chunk bits => exact (State.Steady.storeBitChange s chunk bits).preserves
  case chipSelectAssert port start => exact .of_footing (s.footing_chipSelect port _ _)
  case resetRelease => split <;> exact .of_footing rfl

/-- Every step preserves the four laws: it idles, or carries out a command on the state with the rest of the queue. -/
theorem step_preserves {s t : State} (h : step s = .next t) : s.Preserves t := by
  unfold step at h
  split at h
  · cases h; exact .refl s
  · next c rest _ => exact (State.Preserves.of_footing (s.footing_withPending rest)).trans (exec_preserves h)

/-- Settles O56: every command keeps the blocks or moves them between the pool and one slot. -/
theorem storeAndPoolStayAccounted : Obligations.StoreAndPoolStayAccounted := fun _ _ h =>
  ⟨(step_preserves h).store, (step_preserves h).blocks⟩

/-- Settles O58: every command keeps the armed slot and the mode, or leaves one operation for another. -/
theorem armedSlotAndOperationsMatch : Obligations.ArmedSlotAndOperationsMatch := fun _ _ h =>
  ⟨(step_preserves h).armed, (step_preserves h).mode⟩

end Sys2Proof.Machine
end

section
/-! PROOF SUPPORT. Chunks and their checked reads (R2, R3, R6, R7), and O14: one changed bit is corrected, two are not. -/

namespace Sys2Proof.Machine

open Sys2Proof

/-! ### The content of a chunk -/

section chunk

variable (c : Chunk)

@[simp] theorem Chunk.cell_changed (l : List Nat) (p : Nat) : ({ c with changed := l } : Chunk).cell p = c.cell p := by
  unfold Chunk.cell; split <;> rfl

theorem Chunk.contents_eq_map : c.contents = [0, 1, 2, 3].map fun p => (c.cell p).content := rfl

/-- A cell that a write request has filled takes a record in the place of its own; another stays as it is. -/
def Cell.holding (x : Cell) (r : StitchRecord) : Cell :=
  match x with
  | .written _ => .written r
  | other => other

theorem Cell.holding_content (x : Cell) : x.holding x.content = x := by cases x <;> rfl

/-- The write-back of a chunk position by position (R6). -/
theorem Chunk.corrected_eq : c.corrected =
    { c0 := c.c0.holding (c.checkedRecord 0), c1 := c.c1.holding (c.checkedRecord 1),
      c2 := c.c2.holding (c.checkedRecord 2), c3 := c.c3.holding (c.checkedRecord 3), changed := [] } := rfl

/-- A chunk whose check code is computed anew, position by position (R5). -/
theorem Chunk.sealUnchecked_eq : c.sealUnchecked =
    { c0 := c.c0.holding (c.uncheckedRecordAt 0), c1 := c.c1.holding (c.uncheckedRecordAt 1),
      c2 := c.c2.holding (c.uncheckedRecordAt 2), c3 := c.c3.holding (c.uncheckedRecordAt 3), changed := [] } := rfl

variable {c}

/-- Every position of a COMPLETE chunk is in the written set (R2). -/
theorem Chunk.inSet_of_complete (h : c.state = .complete) (p : Nat) : (c.cell p).inSet = true := by
  unfold Chunk.state at h
  split at h
  · cases h
  · split at h
    · next all =>
      simp only [Bool.and_eq_true] at all
      obtain ⟨⟨⟨h0, h1⟩, h2⟩, h3⟩ := all
      unfold Chunk.cell
      split <;> assumption
    · cases h

/-- With at most two bits changed a checked read of a position delivers what was written there (R3). -/
theorem Chunk.checkedRecord_of_few (h : c.changed.length ≤ 2) (p : Nat) : c.checkedRecord p = (c.cell p).content := by
  unfold Chunk.checkedRecord
  cases c.cell p with
  | blank => rfl
  | padding => rfl
  | written r => exact if_pos (.inl h)

/-- With at most two bits changed the write-back of a chunk is what was written, with no bit changed. -/
theorem Chunk.corrected_of_few (h : c.changed.length ≤ 2) : c.corrected = { c with changed := [] } := by
  simp only [Chunk.corrected_eq, Chunk.checkedRecord_of_few h]
  obtain ⟨c0, c1, c2, c3, changed⟩ := c
  simp only [Chunk.cell, Cell.holding_content]

/-- With no bit changed an unchecked read of a position delivers what stands there (R7). -/
theorem Chunk.uncheckedRecordAt_of_none {p : Nat} (h : c.changedAt p = []) :
    c.uncheckedRecordAt p = (c.cell p).content := by
  unfold Chunk.uncheckedRecordAt
  cases c.cell p with
  | blank => rfl
  | padding => exact if_pos h
  | written r => exact if_pos h

theorem Chunk.outcome_of_none (h : c.changed = []) : c.outcome = .clean := by simp [Chunk.outcome, h]

theorem Chunk.outcome_of_one (h : c.changed.length = 1) : c.outcome = .corrected := by
  obtain ⟨b, e⟩ := List.length_eq_one_iff.mp h
  simp [Chunk.outcome, e]

theorem Chunk.outcome_of_two (h : c.changed.length = 2) : c.outcome = .uncorrectable := by
  obtain ⟨a, b, e⟩ := List.length_eq_two.mp h
  simp [Chunk.outcome, e]

end chunk

/-! ### The checked read by its outcome -/

section read

variable {s : State} {n : Nat}

theorem State.readChunk_unchecked (h : (s.chunk n).state ≠ .complete) : s.readChunk n =
    (s, .records ([0, 1, 2, 3].map fun p => (s.chunk n).uncheckedRecordAt p) false) := by
  unfold State.readChunk
  dsimp only
  split
  · next e => exact absurd e h
  · rfl

theorem State.readChunk_clean (h : (s.chunk n).state = .complete) (o : (s.chunk n).outcome = .clean) :
    s.readChunk n = (s, .records ([0, 1, 2, 3].map fun p => (s.chunk n).checkedRecord p) false) := by
  simp [State.readChunk, h, o]

theorem State.readChunk_corrected (h : (s.chunk n).state = .complete) (o : (s.chunk n).outcome = .corrected) :
    s.readChunk n = ((s.putChunk n (s.chunk n).corrected).post .memoryCorrected 0 (chunkParam n),
      .records ([0, 1, 2, 3].map fun p => (s.chunk n).checkedRecord p) true) := by
  simp [State.readChunk, h, o]

theorem State.readChunk_uncorrectable (h : (s.chunk n).state = .complete) (o : (s.chunk n).outcome = .uncorrectable) :
    s.readChunk n = (s, .uncorrectable) := by
  simp [State.readChunk, h, o]

@[simp] theorem State.chunk_post (k : EventKind) (head : Nat) (param : BitVec 32) (m : Nat) :
    (s.post k head param).chunk m = s.chunk m := by
  obtain ⟨q, e⟩ := s.post_eq k head param
  rw [e]; rfl

/-- A chunk no bit of which has changed is read as it was written, and nothing changes. -/
theorem State.readChunk_of_none (h : (s.chunk n).changed = []) :
    s.readChunk n = (s, .records (s.chunk n).contents false) := by
  rw [Chunk.contents_eq_map]
  by_cases complete : (s.chunk n).state = .complete
  · rw [State.readChunk_clean complete (Chunk.outcome_of_none h)]
    simp only [Chunk.checkedRecord_of_few (c := s.chunk n) (by simp [h])]
  · have none : ∀ p, (s.chunk n).changedAt p = [] := fun p => by simp [Chunk.changedAt, h]
    rw [State.readChunk_unchecked complete]
    simp only [Chunk.uncheckedRecordAt_of_none (none _)]

/-- A COMPLETE chunk one bit of which has changed is read as it was written, written back so, and MEMORY_CORRECTED is
posted (R6). -/
theorem State.readChunk_of_one (complete : (s.chunk n).state = .complete) (h : (s.chunk n).changed.length = 1) :
    s.readChunk n = ((s.putChunk n { s.chunk n with changed := [] }).post .memoryCorrected 0 (chunkParam n),
      .records (s.chunk n).contents true) := by
  rw [State.readChunk_corrected complete (Chunk.outcome_of_one h), Chunk.contents_eq_map,
    Chunk.corrected_of_few (by omega)]
  simp only [Chunk.checkedRecord_of_few (c := s.chunk n) (by omega)]

end read

/-! ### Bits that change in a COMPLETE chunk (R3) -/

/-- Every content bit and every check bit of a COMPLETE chunk bears on its reads. -/
theorem Chunk.bearing_of_complete {c : Chunk} (h : c.state = .complete) {b : Nat} (bit : b < 266) : c.bearing b = true := by
  unfold Chunk.bearing
  split
  · exact Chunk.inSet_of_complete h _
  · simp [h, Config.chunkBits, bit]

theorem Chunk.changeBits_one {c : Chunk} (h : c.state = .complete) (clean : c.changed = []) {b : Nat} (bit : b < 266) :
    c.changeBits [b] = { c with changed := [b] } := by
  simp [Chunk.changeBits, Chunk.bearing_of_complete h bit, clean, toggleBit]

/-- Two different bits that change in a chunk as it was written stand as two changed bits. -/
theorem Chunk.changeBits_two {c : Chunk} (h : c.state = .complete) (clean : c.changed = []) {a b : Nat} (bitA : a < 266)
    (bitB : b < 266) (ne : a ≠ b) : ∃ l : List Nat, c.changeBits [a, b] = { c with changed := l } ∧ l.length = 2 := by
  have both : c.changeBits [a, b] = { c with changed := toggleBit b [a] } := by
    simp [Chunk.changeBits, Chunk.bearing_of_complete h bitA, Chunk.bearing_of_complete h bitB, clean, toggleBit]
  refine ⟨_, both, ?_⟩
  unfold toggleBit
  split
  · rfl
  · rfl

theorem State.storeBitChange_below {s : State} {n : Nat} (h : n < 65536) (bits : List Nat) :
    s.storeBitChange n bits = s.putChunk n ((s.chunk n).changeBits bits) := if_pos h

/-- Posting an event is blind to the store. -/
theorem State.post_putChunk (s : State) (n : Nat) (c : Chunk) (k : EventKind) (head : Nat) (param : BitVec 32) :
    (s.putChunk n c).post k head param =
      { s with store := ((s.putChunk n c).post k head param).store, events := (s.post k head param).events } := by
  unfold State.post State.postTarget
  have log : (s.putChunk n c).classOf k.code = s.classOf k.code := rfl
  rw [log]
  split <;> rfl

/-- A chunk number as an event parameter is the number itself. -/
theorem chunkParam_eq {n : Nat} (h : n < 65536) : chunkParam n = BitVec.ofNat 32 n := by
  unfold chunkParam paramField
  rw [Nat.mod_eq_of_lt (by norm_num; exact h), pow_zero, mul_one]

/-- Settles O14: a changed bit bears on the check of a COMPLETE chunk, which corrects one and finds two uncorrectable. -/
theorem oneBitCorrectedTwoBitsNot : Obligations.OneBitCorrectedTwoBitsNot := by
  intro s n below complete clean
  refine ⟨fun b bit => ?_, fun a b bitA bitB ne => ?_⟩
  · refine ⟨_, rfl, ?_⟩
    rw [State.storeBitChange_below below, Chunk.changeBits_one complete clean bit]
    generalize ht : s.putChunk n { s.chunk n with changed := [b] } = t
    have chunk : ∀ m, t.chunk m = if m = n then { s.chunk n with changed := [b] } else s.chunk m := fun m => by
      rw [← ht, State.chunk_putChunk]
    have here : t.chunk n = { s.chunk n with changed := [b] } := by rw [chunk, if_pos rfl]
    have read := State.readChunk_of_one (s := t) (n := n) (by rw [here]; exact complete) (by rw [here]; rfl)
    have restored : ({ t.chunk n with changed := [] } : Chunk) = s.chunk n := by rw [here, ← clean]
    rw [restored, chunkParam_eq below] at read
    rw [read]
    have back : ∀ m, ((t.putChunk n (s.chunk n)).post .memoryCorrected 0 (BitVec.ofNat 32 n)).chunk m = s.chunk m := by
      intro m
      rw [State.chunk_post, State.chunk_putChunk, chunk]
      split
      · next e => rw [e]
      · rfl
    refine ⟨by rw [← ht]; rfl, fun m ne => by rw [chunk, if_neg ne], Chunk.outcome_of_one (by rw [here]; rfl),
      by rw [here]; rfl, back, ?_, ?_⟩
    · have posted := State.post_putChunk t n (s.chunk n) .memoryCorrected 0 (BitVec.ofNat 32 n)
      have events : (t.post .memoryCorrected 0 (BitVec.ofNat 32 n)).events =
          (s.post .memoryCorrected 0 (BitVec.ofNat 32 n)).events := by
        rw [← ht, State.post_putChunk]
      rw [events] at posted
      refine posted.trans ?_
      rw [← ht]
      rfl
    · rw [State.readChunk_of_none (by rw [back, clean]), back]
  · obtain ⟨l, changed, two⟩ := Chunk.changeBits_two complete clean bitA bitB ne
    refine ⟨_, rfl, ?_⟩
    rw [State.storeBitChange_below below, changed]
    have here : (s.putChunk n { s.chunk n with changed := l }).chunk n = { s.chunk n with changed := l } := by
      rw [State.chunk_putChunk, if_pos rfl]
    have outcome := Chunk.outcome_of_two (c := { s.chunk n with changed := l }) two
    refine ⟨rfl, fun m ne => by rw [State.chunk_putChunk, if_neg ne], by rw [here]; exact outcome, ?_⟩
    exact State.readChunk_uncorrectable (by rw [here]; exact complete) (by rw [here]; exact outcome)

end Sys2Proof.Machine
end

section
/-! PROOF SUPPORT. The chunk groups of a port P request and the reads over them (R4, R8, R20). -/

namespace Sys2Proof.Machine

open Sys2Proof

/-! ### The groups of four positions that a request covers (R20) -/

/-- The groups of four record indices that `count` indices from `index` on fall into, in ascending order. -/
def groupsOf (index count : Nat) : List Nat :=
  (List.range ((index + count - 1) / 4 + 1 - index / 4)).map (index / 4 + ·)

/-- The positions of group `g` that `count` indices from `index` on name. -/
def namedIn (index count g : Nat) : List Nat :=
  [0, 1, 2, 3].filter fun p => decide (index ≤ 4 * g + p ∧ 4 * g + p < index + count)

/-- The span of group `g`. -/
def spanOf (map : List Nat) (index count g : Nat) : Span :=
  { chunk := chunkOf map (4 * g), first := 4 * g, positions := namedIn index count g }

theorem spansOf_eq (map : List Nat) (index : Nat) {count : Nat} (h : 1 ≤ count) :
    spansOf map index count = (groupsOf index count).map (spanOf map index count) := by
  have positive : count ≠ 0 := by omega
  simp only [spansOf, if_neg positive, groupsOf, List.map_map]
  refine List.map_congr_left fun k _ => ?_
  simp only [Function.comp, spanOf, namedIn, Nat.mul_comm 4]

theorem mem_namedIn {index count g p : Nat} :
    p ∈ namedIn index count g ↔ p < 4 ∧ index ≤ 4 * g + p ∧ 4 * g + p < index + count := by
  simp only [namedIn, List.mem_filter, decide_eq_true_eq, List.mem_cons, List.not_mem_nil, or_false]
  omega

theorem mem_groupsOf {index count g : Nat} (h : 1 ≤ count) :
    g ∈ groupsOf index count ↔ ∃ p, p < 4 ∧ index ≤ 4 * g + p ∧ 4 * g + p < index + count := by
  simp only [groupsOf, List.mem_map, List.mem_range]
  constructor
  · rintro ⟨k, hk, rfl⟩
    by_cases low : index ≤ 4 * (index / 4 + k)
    · exact ⟨0, by omega⟩
    · exact ⟨index % 4, by omega⟩
  · rintro ⟨p, hp, lo, hi⟩
    exact ⟨g - index / 4, by omega⟩

theorem groupsOf_sorted (index count : Nat) : (groupsOf index count).Pairwise (· < ·) := by
  rw [groupsOf, List.pairwise_map]
  exact List.pairwise_lt_range.imp fun h => Nat.add_lt_add_left h _

/-- A group of a request lies within its block map. -/
theorem lt_of_mem_groupsOf {index count g n : Nat} (h : 1 ≤ count) (fits : index + count ≤ 512 * n)
    (mem : g ∈ groupsOf index count) : g / 128 < n := by
  obtain ⟨p, -, -, hi⟩ := (mem_groupsOf h).mp mem
  omega

/-- The indices of a request, group by group and position by position. -/
theorem groupsOf_flatMap (index : Nat) {count : Nat} (h : 1 ≤ count) :
    ((groupsOf index count).flatMap fun g => (namedIn index count g).map (4 * g + ·)) =
      (List.range count).map (index + ·) := by
  have left : ((groupsOf index count).flatMap fun g => (namedIn index count g).map (4 * g + ·)).Pairwise (· < ·) := by
    rw [List.pairwise_flatMap]
    refine ⟨fun g _ => ?_, (groupsOf_sorted index count).imp fun {a b} lt x hx y hy => ?_⟩
    · have rising : (namedIn index count g).Pairwise (· < ·) :=
        List.Pairwise.filter _ (by decide : [0, 1, 2, 3].Pairwise (· < ·))
      exact rising.map _ fun _ _ lt => Nat.add_lt_add_left lt _
    · obtain ⟨p, hp, rfl⟩ := List.mem_map.mp hx
      obtain ⟨q, -, rfl⟩ := List.mem_map.mp hy
      have := (mem_namedIn.mp hp).1
      omega
  have right : ((List.range count).map (index + ·)).Pairwise (· < ·) :=
    List.pairwise_lt_range.map _ fun _ _ lt => Nat.add_lt_add_left lt _
  refine left.eq_of_mem_iff right fun i => ?_
  simp only [List.mem_flatMap, List.mem_map, List.mem_range]
  constructor
  · rintro ⟨g, -, p, hp, rfl⟩
    obtain ⟨-, lo, hi⟩ := mem_namedIn.mp hp
    exact ⟨4 * g + p - index, by omega⟩
  · rintro ⟨j, hj, rfl⟩
    refine ⟨(index + j) / 4, (mem_groupsOf h).mpr ⟨(index + j) % 4, by omega⟩, (index + j) % 4,
      mem_namedIn.mpr ⟨by omega, by omega, by omega⟩, by omega⟩

/-- A strictly rising list parted at one of its members. -/
theorem sorted_split {l : List Nat} (sorted : l.Pairwise (· < ·)) {g : Nat} (mem : g ∈ l) :
    ∃ pre post, l = pre ++ g :: post ∧ ∀ k, k ∈ pre ↔ k ∈ l ∧ k < g := by
  obtain ⟨pre, post, rfl⟩ := List.append_of_mem mem
  obtain ⟨-, after, before⟩ := List.pairwise_append.mp sorted
  refine ⟨pre, post, rfl, fun k => ⟨fun hk => ⟨List.mem_append_left _ hk, before k hk g (by simp)⟩, ?_⟩⟩
  rintro ⟨hk, lt⟩
  rcases List.mem_append.mp hk with hk | hk
  · exact hk
  · rcases List.mem_cons.mp hk with rfl | hk
    · omega
    · have := (List.pairwise_cons.mp after).1 k hk
      omega

/-- The chunk of a group of four record indices. -/
theorem chunkOf_four (map : List Nat) (g : Nat) : chunkOf map (4 * g) = map.getD (g / 128) 0 * 128 + g % 128 := by
  simp only [chunkOf, Config.blockPositions, Config.blockChunks]
  have block : 4 * g / 512 = g / 128 := by omega
  have place : 4 * g % 512 / 4 = g % 128 := by omega
  rw [block, place]

/-- The four indices of a group lie in one chunk. -/
theorem chunkOf_group (map : List Nat) (g : Nat) {p : Nat} (h : p < 4) : chunkOf map (4 * g + p) = chunkOf map (4 * g) := by
  simp only [chunkOf, Config.blockPositions]
  have block : (4 * g + p) / 512 = 4 * g / 512 := by omega
  have place : (4 * g + p) % 512 / 4 = 4 * g % 512 / 4 := by omega
  rw [block, place]

/-- In a block map without repetition two groups of the design never share a chunk. -/
theorem chunkOf_four_inj {map : List Nat} (nodup : map.Nodup) {g k : Nat} (hg : g / 128 < map.length)
    (hk : k / 128 < map.length) (e : chunkOf map (4 * g) = chunkOf map (4 * k)) : g = k := by
  rw [chunkOf_four, chunkOf_four, List.getD_eq_getElem _ _ hg, List.getD_eq_getElem _ _ hk] at e
  have block : map[g / 128] = map[k / 128] := by omega
  have : g / 128 = k / 128 := (nodup.getElem_inj_iff).mp block
  omega

/-- The chunks that a request covers are those of its groups. -/
theorem covers_iff {map : List Nat} {index count n : Nat} (h : 1 ≤ count) :
    covers map index count n ↔ ∃ g ∈ groupsOf index count, n = chunkOf map (4 * g) := by
  constructor
  · rintro ⟨j, hj, rfl⟩
    refine ⟨(index + j) / 4, (mem_groupsOf h).mpr ⟨(index + j) % 4, by omega⟩, ?_⟩
    rw [← chunkOf_group map ((index + j) / 4) (p := (index + j) % 4) (by omega), Nat.div_add_mod]
  · rintro ⟨g, hg, rfl⟩
    obtain ⟨p, hp, lo, hi⟩ := (mem_groupsOf h).mp hg
    refine ⟨4 * g + p - index, by omega, ?_⟩
    rw [Nat.add_sub_cancel' lo, chunkOf_group map g hp]

/-- A record index read through its group. -/
theorem State.cellAt_group (s : State) (map : List Nat) (g : Nat) {p : Nat} (h : p < 4) :
    s.cellAt map (4 * g + p) = (s.chunk (chunkOf map (4 * g))).cell p := by
  have place : (4 * g + p) % 4 = p := by omega
  rw [State.cellAt, chunkOf_group map g h, place]

/-! ### What the read of a chunk delivers and leaves -/

/-- What a read of a chunk delivers, position by position (R6, R7). -/
def Chunk.delivered (c : Chunk) : List StitchRecord :=
  [0, 1, 2, 3].map fun p => if c.state = .complete then c.checkedRecord p else c.uncheckedRecordAt p

/-- Whether a read of a chunk corrects it (R6). -/
def Chunk.corrects (c : Chunk) : Bool := decide (c.state = .complete) && decide (c.outcome = .corrected)

/-- The chunk as a read leaves it: written back where it is corrected (R6). -/
def Chunk.afterRead (c : Chunk) : Chunk := if c.corrects then c.corrected else c

/-- Whether a chunk can be read: it is not a COMPLETE one found uncorrectable. -/
def Chunk.readable (c : Chunk) : Prop := c.state = .complete → c.outcome ≠ .uncorrectable

section read

variable {s : State} {c : Chunk}

/-- A chunk that can be read delivers its records, and no other chunk changes. -/
theorem State.readChunk_readable {n : Nat} (h : (s.chunk n).readable) :
    (s.readChunk n).2 = .records (s.chunk n).delivered (s.chunk n).corrects ∧
      (∀ m, (s.readChunk n).1.chunk m = if m = n then (s.chunk n).afterRead else s.chunk m) ∧
      ((s.chunk n).corrects = false → (s.readChunk n).1 = s) := by
  by_cases complete : (s.chunk n).state = .complete
  · cases outcome : (s.chunk n).outcome with
    | clean =>
      rw [State.readChunk_clean complete outcome]
      simp [Chunk.delivered, Chunk.corrects, Chunk.afterRead, complete, outcome]
    | corrected =>
      rw [State.readChunk_corrected complete outcome]
      simp [Chunk.delivered, Chunk.corrects, Chunk.afterRead, complete, outcome]
    | uncorrectable => exact absurd outcome (h complete)
  · rw [State.readChunk_unchecked complete]
    simp [Chunk.delivered, Chunk.corrects, Chunk.afterRead, complete]

theorem Cell.holding_inSet (x : Cell) (r : StitchRecord) : (x.holding r).inSet = x.inSet := by cases x <;> rfl
theorem Cell.holding_byRequest (x : Cell) (r : StitchRecord) : (x.holding r).byRequest = x.byRequest := by cases x <;> rfl

/-- The write-back leaves the written set and so the chunk state. -/
theorem Chunk.corrected_state (c : Chunk) : c.corrected.state = c.state := by
  simp only [Chunk.state, Chunk.corrected_eq, Cell.holding_inSet, Cell.holding_byRequest]

/-- A chunk written back is clean. -/
theorem Chunk.afterRead_corrects (c : Chunk) : c.afterRead.corrects = false := by
  unfold Chunk.afterRead
  split
  · simp [Chunk.corrects, Chunk.outcome_of_none (c := c.corrected) rfl]
  · next h => simpa using h

/-- A chunk that has been read can be read. -/
theorem Chunk.afterRead_readable (h : c.readable) : c.afterRead.readable := by
  unfold Chunk.afterRead
  split
  · intro _; simp [Chunk.outcome_of_none (c := c.corrected) rfl]
  · exact h

/-- A second read leaves what the first has left. -/
theorem Chunk.afterRead_afterRead (c : Chunk) : c.afterRead.afterRead = c.afterRead := by
  rw [Chunk.afterRead, Chunk.afterRead_corrects]
  rfl

/-- A chunk written back delivers what the read that corrected it delivered. -/
theorem Chunk.afterRead_delivered (c : Chunk) : c.afterRead.delivered = c.delivered := by
  unfold Chunk.afterRead
  split
  · next h =>
    have complete : c.state = .complete := by
      simp only [Chunk.corrects, Bool.and_eq_true, decide_eq_true_eq] at h
      exact h.1
    have cells : ∀ p, c.corrected.cell p = (c.cell p).holding (c.checkedRecord p) ∨ 4 ≤ p := by
      intro p
      rw [Chunk.corrected_eq]
      match p with
      | 0 => exact .inl rfl
      | 1 => exact .inl rfl
      | 2 => exact .inl rfl
      | 3 => exact .inl rfl
      | _ + 4 => exact .inr (by omega)
    simp only [Chunk.delivered, Chunk.corrected_state, if_pos complete]
    refine List.map_congr_left fun p hp => ?_
    have small : p < 4 := by simp only [List.mem_cons, List.not_mem_nil, or_false] at hp; omega
    rw [Chunk.checkedRecord_of_few (c := c.corrected) (by simp [Chunk.corrected_eq])]
    rcases cells p with e | big
    · rw [e]
      unfold Chunk.checkedRecord
      cases c.cell p <;> rfl
    · omega
  · rfl

/-! ### The reads of a request, one after another (R4, R8) -/

/-- What reads over several spans deliver, of chunks as they stand in `s`. -/
def State.deliveredOver (s : State) (spans : List Span) : List StitchRecord :=
  spans.flatMap fun sp => sp.positions.map fun p => (s.chunk sp.chunk).delivered.getD p endOfDesign

/-- Reads over chunks that can all be read deliver their records, and write back each chunk that is corrected. -/
theorem State.readSpans_readable (spans : List Span) (h : ∀ sp ∈ spans, (s.chunk sp.chunk).readable) :
    (s.readSpans spans).2 = .ended (s.deliveredOver spans) (spans.any fun sp => (s.chunk sp.chunk).corrects) ∧
      (∀ m, (s.readSpans spans).1.chunk m =
        if m ∈ spans.map (·.chunk) then (s.chunk m).afterRead else s.chunk m) ∧
      ((∀ sp ∈ spans, (s.chunk sp.chunk).corrects = false) → (s.readSpans spans).1 = s) := by
  induction spans generalizing s with
  | nil => exact ⟨rfl, fun m => rfl, fun _ => rfl⟩
  | cons sp rest ih =>
    obtain ⟨first, chunks, quiet⟩ := State.readChunk_readable (h sp List.mem_cons_self)
    generalize ht : s.readChunk sp.chunk = p at first chunks quiet
    obtain ⟨t, result⟩ := p
    dsimp only at first chunks quiet
    subst first
    have readable : ∀ q ∈ rest, (t.chunk q.chunk).readable := by
      intro q hq
      rw [chunks]
      split
      · exact Chunk.afterRead_readable (h sp List.mem_cons_self)
      · exact h q (List.mem_cons_of_mem _ hq)
    obtain ⟨later, after, still⟩ := ih readable
    generalize hu : t.readSpans rest = r at later after still
    obtain ⟨u, more⟩ := r
    dsimp only at later after still
    subst later
    have whole : s.readSpans (sp :: rest) = (u, .ended
        (sp.positions.map (fun p => (s.chunk sp.chunk).delivered.getD p endOfDesign) ++ t.deliveredOver rest)
        ((s.chunk sp.chunk).corrects || rest.any fun q => (t.chunk q.chunk).corrects)) := by
      simp only [State.readSpans, ht, hu]
    rw [whole]
    refine ⟨?_, fun m => ?_, fun none => ?_⟩
    · have same : t.deliveredOver rest = s.deliveredOver rest := by
        refine List.flatMap_congr fun q _ => ?_
        rw [chunks]
        split
        · next e => rw [e, Chunk.afterRead_delivered]
        · rfl
      have flag : ((s.chunk sp.chunk).corrects || rest.any fun q => (t.chunk q.chunk).corrects) =
          ((sp :: rest).any fun q => (s.chunk q.chunk).corrects) := by
        rw [List.any_cons]
        cases one : (s.chunk sp.chunk).corrects with
        | true => rfl
        | false =>
          have t_eq := quiet one
          rw [t_eq]
      rw [same, flag]
      rfl
    · show u.chunk m = _
      rw [after, chunks]
      by_cases here : m = sp.chunk
      · simp [here, Chunk.afterRead_afterRead]
      · simp [here]
    · have t_eq : t = s := quiet (none sp List.mem_cons_self)
      subst t_eq
      exact still fun q hq => none q (List.mem_cons_of_mem _ hq)

/-- Reads that come to a chunk found uncorrectable end there, those before it made (R8). -/
theorem State.readSpans_stops (pre post : List Span) (sp : Span) (h : ∀ q ∈ pre, (s.chunk q.chunk).readable)
    (bad : ((s.readSpans pre).1.chunk sp.chunk).state = .complete)
    (outcome : ((s.readSpans pre).1.chunk sp.chunk).outcome = .uncorrectable) :
    s.readSpans (pre ++ sp :: post) = ((s.readSpans pre).1, .uncorrectable sp.first) := by
  induction pre generalizing s with
  | nil =>
    show s.readSpans (sp :: post) = (s, _)
    simp only [State.readSpans, State.readChunk_uncorrectable (s := s) bad outcome]
  | cons q rest ih =>
    obtain ⟨first, chunks, -⟩ := State.readChunk_readable (h q List.mem_cons_self)
    generalize ht : s.readChunk q.chunk = p at first chunks
    obtain ⟨t, result⟩ := p
    dsimp only at first chunks
    subst first
    have readable : ∀ x ∈ rest, (t.chunk x.chunk).readable := by
      intro x hx
      rw [chunks]
      split
      · exact Chunk.afterRead_readable (h q List.mem_cons_self)
      · exact h x (List.mem_cons_of_mem _ hx)
    have front : (s.readSpans (q :: rest)).1 = (t.readSpans rest).1 := by
      obtain ⟨later, -, -⟩ := State.readSpans_readable rest readable
      generalize hu : t.readSpans rest = r at later
      obtain ⟨u, more⟩ := r
      dsimp only at later
      subst later
      simp only [State.readSpans, ht, hu]
    rw [front] at bad outcome ⊢
    have stop := ih readable bad outcome
    rw [List.cons_append]
    simp only [State.readSpans, ht, stop]

end read

end Sys2Proof.Machine
end

section
/-! PROOF SUPPORT. The end of a port P access (R15), and O13: what a read request delivers. -/

namespace Sys2Proof.Machine

open Sys2Proof

variable {s t : State}

/-! ### The end of a port P access (R15) -/

/-- The request leaves the arbiter, and nothing but the arbiter changes. -/
theorem State.endPortAccess_eq (s : State) : ∃ b, s.endPortAccess = s.withArbiter b ∧ b.portP = none := by
  unfold State.endPortAccess
  split
  · exact ⟨_, rfl, Arbiter.grant_portP _⟩
  · exact ⟨_, rfl, rfl⟩

/-- The end of the access of port P: what it has done, the request gone, and its reply unless it is lost. -/
theorem exec_portStoreAccessDone {a : PortAccess} {code : ReplyCode} {payload : List Byte} (power : s.power ≠ .held)
    (holder : s.arbiter.holder = some .portP) (port : s.arbiter.portP = some a)
    (done : s.carryOut a = (t, code, payload)) :
    ∃ u, exec .portStoreAccessDone s = .next u ∧ u.arbiter.portP = none ∧
      u = { t with arbiter := u.arbiter, portP := u.portP } ∧ (a.replyLost = true → u.portP = t.portP) ∧
      (a.replyLost = false → u.portP.reply = .held { status := u.statusByte .p, code := code, payload := payload }) := by
  obtain ⟨b, ended, gone⟩ := t.endPortAccess_eq
  refine ⟨_, rfl, ?_⟩
  rw [State.onEvent_acts s _ power]
  simp only [State.portAccessDone, holder, port, done, ended]
  cases a.replyLost with
  | true => exact ⟨gone, rfl, fun _ => rfl, nofun⟩
  | false => exact ⟨gone, rfl, nofun, fun _ => rfl⟩

/-- A fault handed to the access fault record stands in it; an unfrozen record takes it whole (R23). -/
theorem State.recordFault_memory (s : State) (command : FaultCommand) (slot index : Nat) :
    ∃ f, s.recordFault .portP (some command) slot index .memory = s.withFaultRecord f ∧ f.frozen = true ∧
      f.kinds.uncorrectable = true ∧
      (s.faultRecord.frozen = false → f = {
        frozen := true, source := some .portP, command := some command,
        slot := some slot, index := some index, kinds := ⟨false, false, false, true⟩ }) := by
  unfold State.recordFault
  split
  · next frozen =>
    exact ⟨_, rfl, frozen, by simp [FaultKinds.union, FaultKinds.memory], fun not => by rw [not] at frozen; cases frozen⟩
  · exact ⟨_, rfl, rfl, rfl, fun _ => rfl⟩

/-- The damage of a slot, said of that slot and of every other. -/
theorem State.slot_damageSlot_same (s : State) (k : Nat) : (s.damageSlot k).slot k =
    { s.slot k with state := if (s.slot k).state = .ready then .damaged else (s.slot k).state } := by
  rw [State.slot_damageSlot]
  by_cases ready : (s.slot k).state = .ready
  · rw [if_pos ⟨rfl, ready⟩, if_pos ready]
  · rw [if_neg fun both => ready both.2, if_neg ready]

theorem State.slot_damageSlot_other (s : State) {k j : Nat} (h : j ≠ k) : (s.damageSlot k).slot j = s.slot j := by
  rw [State.slot_damageSlot, if_neg fun both => h both.1]

/-! ### Chunks whose reads deliver what was written -/

/-- A chunk whose read delivers what was written: none of its bits has changed, or one and it is COMPLETE. -/
def Chunk.sound (c : Chunk) : Prop := c.changed = [] ∨ c.state = .complete ∧ c.changed.length = 1

section sound

variable {c : Chunk}

theorem Chunk.sound.few (h : c.sound) : c.changed.length ≤ 2 := by
  rcases h with e | ⟨-, one⟩
  · simp [e]
  · omega

theorem Chunk.sound.readable (h : c.sound) : c.readable := by
  intro _
  rcases h with e | ⟨-, one⟩
  · simp [Chunk.outcome_of_none e]
  · simp [Chunk.outcome_of_one one]

theorem Chunk.sound.delivered (h : c.sound) : c.delivered = c.contents := by
  rw [Chunk.contents_eq_map]
  refine List.map_congr_left fun p _ => ?_
  split
  · exact Chunk.checkedRecord_of_few h.few p
  · next partly =>
    rcases h with e | ⟨complete, -⟩
    · exact Chunk.uncheckedRecordAt_of_none (by simp [Chunk.changedAt, e])
    · exact absurd complete partly

theorem Chunk.sound.corrects (h : c.sound) : c.corrects = decide (c.changed ≠ []) := by
  rcases h with e | ⟨complete, one⟩
  · simp [Chunk.corrects, Chunk.outcome_of_none e, e]
  · have some : c.changed ≠ [] := by intro e; simp [e] at one
    simp [Chunk.corrects, Chunk.outcome_of_one one, complete, some]

theorem Chunk.sound.afterRead (h : c.sound) : c.afterRead = { c with changed := [] } := by
  unfold Chunk.afterRead
  split
  · exact Chunk.corrected_of_few h.few
  · next clean =>
    rw [h.corrects] at clean
    have e : c.changed = [] := by simpa using clean
    rw [← e]

end sound

/-! ### The read request (R8, R28) -/

/-- The spans of a read request whose chunks are sound deliver the content of its indices in order. -/
theorem State.deliveredOver_spansOf (s : State) (map : List Nat) (index : Nat) {count : Nat} (h : 1 ≤ count)
    (sound : ∀ g ∈ groupsOf index count, (s.chunk (chunkOf map (4 * g))).sound) :
    s.deliveredOver ((groupsOf index count).map (spanOf map index count)) =
      (List.range count).map fun j => (s.cellAt map (index + j)).content := by
  have regrouped : (List.range count).map (fun j => (s.cellAt map (index + j)).content) =
      ((groupsOf index count).flatMap fun g => (namedIn index count g).map (4 * g + ·)).map
        fun i => (s.cellAt map i).content := by
    rw [groupsOf_flatMap index h, List.map_map]
    rfl
  rw [regrouped, List.map_flatMap, State.deliveredOver, List.flatMap_map]
  refine List.flatMap_congr fun g hg => ?_
  rw [List.map_map]
  refine List.map_congr_left fun p hp => ?_
  obtain ⟨small, -, -⟩ := mem_namedIn.mp hp
  simp only [Function.comp, spanOf, (sound g hg).delivered, State.cellAt_group s map g small]
  match p, small with
  | 0, _ => rfl
  | 1, _ => rfl
  | 2, _ => rfl
  | 3, _ => rfl

/-- Whether some index of a request lies in a chunk with a property, group by group. -/
theorem any_groups_eq (map : List Nat) (index : Nat) {count : Nat} (h : 1 ≤ count) (q : Nat → Bool) :
    ((groupsOf index count).any fun g => q (chunkOf map (4 * g))) =
      (List.range count).any fun j => q (chunkOf map (index + j)) := by
  have spread := groupsOf_flatMap index h
  have index_any : (List.range count).any (fun j => q (chunkOf map (index + j))) =
      (((groupsOf index count).flatMap fun g => (namedIn index count g).map (4 * g + ·)).any fun i => q (chunkOf map i)) := by
    rw [spread, List.any_map]
    rfl
  rw [index_any, List.any_flatMap, Bool.eq_iff_iff, List.any_eq_true, List.any_eq_true]
  refine exists_congr fun g => and_congr_right fun hg => ?_
  rw [List.any_map, List.any_eq_true]
  constructor
  · intro hq
    obtain ⟨p, small, lo, hi⟩ := (mem_groupsOf h).mp hg
    exact ⟨p, mem_namedIn.mpr ⟨small, lo, hi⟩, by simpa [chunkOf_group map g small] using hq⟩
  · rintro ⟨p, hp, hq⟩
    obtain ⟨small, -, -⟩ := mem_namedIn.mp hp
    simpa [chunkOf_group map g small] using hq

/-- The store after the reads of a request, said of single chunks. -/
theorem State.chunk_readSpans_groups {map : List Nat} {index count : Nat} {l : List Nat}
    (sound : ∀ g ∈ l, (s.chunk (chunkOf map (4 * g))).sound) :
    (∀ g ∈ l, (s.readSpans (l.map (spanOf map index count))).1.chunk (chunkOf map (4 * g)) =
        { s.chunk (chunkOf map (4 * g)) with changed := [] }) ∧
      ∀ n, (∀ g ∈ l, n ≠ chunkOf map (4 * g)) →
        (s.readSpans (l.map (spanOf map index count))).1.chunk n = s.chunk n := by
  have readable : ∀ sp ∈ l.map (spanOf map index count), (s.chunk sp.chunk).readable := by
    intro sp hsp
    obtain ⟨g, hg, rfl⟩ := List.mem_map.mp hsp
    exact (sound g hg).readable
  obtain ⟨-, chunks, -⟩ := State.readSpans_readable _ readable
  have chunk_mem : ∀ n, n ∈ (l.map (spanOf map index count)).map (·.chunk) ↔ ∃ g ∈ l, chunkOf map (4 * g) = n := by
    intro n
    simp [spanOf]
  refine ⟨fun g hg => ?_, fun n other => ?_⟩
  · rw [chunks, if_pos ((chunk_mem _).mpr ⟨g, hg, rfl⟩), (sound g hg).afterRead]
  · rw [chunks, if_neg]
    rw [chunk_mem]
    rintro ⟨g, hg, e⟩
    exact other g hg e.symm

theorem State.carryOut_read_ended {a : PortAccess} {rs : List StitchRecord} {flag : Bool} (read : a.write = none)
    (e : s.readSpans a.spans = (t, .ended rs flag)) :
    s.carryOut a = (t, .ok, beBytes 1 rs.length ++ rs.flatMap recordBytes ++ flagByte flag) := by
  simp only [State.carryOut, read, e]

theorem State.carryOut_read_uncorrectable {a : PortAccess} {first : Nat} (read : a.write = none)
    (e : s.readSpans a.spans = (t, .uncorrectable first)) :
    s.carryOut a = ((t.recordFault .portP (some .readRecords) a.slot first .memory).damageSlot a.slot, .uncorrectable,
      beBytes 3 first) := by
  simp only [State.carryOut, read, e]

/-- An access carried out never touches the port. -/
theorem State.carryOut_portP (s : State) (a : PortAccess) : (s.carryOut a).1.portP = s.portP := by
  have fault : ∀ (r : State) (command : FaultCommand) (first : Nat),
      (r.recordFault .portP (some command) a.slot first .memory).portP = r.portP := by
    intro r command first
    obtain ⟨f, e, -⟩ := r.recordFault_memory command a.slot first
    rw [e]; rfl
  have damage : ∀ r : State, (r.damageSlot a.slot).portP = r.portP := by
    intro r
    obtain ⟨q, e⟩ := r.damageSlot_eq a.slot
    rw [e]; rfl
  unfold State.carryOut
  split
  · next rs _ =>
    split
    · rfl
    · obtain ⟨st, v, e⟩ := s.writeRequest_eq a.index rs a.spans
      split
      · next h => rw [h] at e; exact (congrArg State.portP e).trans rfl
      · next h => rw [h] at e; exact (fault _ _ _).trans ((congrArg State.portP e).trans rfl)
  · obtain ⟨st, v, e⟩ := s.readSpans_eq a.spans
    split
    · next h => rw [h] at e; exact (congrArg State.portP e).trans rfl
    · next h => rw [h] at e; exact ((damage _).trans (fault _ _ _)).trans ((congrArg State.portP e).trans rfl)

/-- The payload of a read that ends well, from the contents and whether a bit had changed. -/
theorem readPayload_eq (count : Nat) (content : Nat → StitchRecord) (flag : Bool) :
    beBytes 1 ((List.range count).map content).length ++ ((List.range count).map content).flatMap recordBytes ++ flagByte flag =
      BitVec.ofNat 8 count ::
        ((List.range count).flatMap (fun j => recordBytes (content j)) ++ [if flag = true then 1 else 0]) := by
  simp [beBytes, flagByte, List.flatMap_map]

section request

variable {a : PortAccess} {map : List Nat}

/-- A read request all of whose chunks are sound (R6, R28): its reply, the chunks written back, nothing else. -/
theorem State.carryOut_read_sound (read : a.write = none)
    (spans : a.spans = (groupsOf a.index a.count).map (spanOf map a.index a.count)) (pos : 1 ≤ a.count)
    (sound : ∀ g ∈ groupsOf a.index a.count, (s.chunk (chunkOf map (4 * g))).sound) :
    ∃ st v, s.carryOut a = ((s.withStore st).withEvents v, .ok,
        BitVec.ofNat 8 a.count ::
          ((List.range a.count).flatMap (fun j => recordBytes (s.cellAt map (a.index + j)).content) ++
            [if ((List.range a.count).any fun j =>
              decide ((s.chunk (chunkOf map (a.index + j))).changed ≠ [])) = true then 1 else 0])) ∧
      (∀ g ∈ groupsOf a.index a.count, (s.withStore st).chunk (chunkOf map (4 * g)) =
        { s.chunk (chunkOf map (4 * g)) with changed := [] }) ∧
      (∀ n, (∀ g ∈ groupsOf a.index a.count, n ≠ chunkOf map (4 * g)) → (s.withStore st).chunk n = s.chunk n) ∧
      ((∀ g ∈ groupsOf a.index a.count, (s.chunk (chunkOf map (4 * g))).changed = []) → st = s.store ∧ v = s.events) := by
  have readable : ∀ sp ∈ a.spans, (s.chunk sp.chunk).readable := by
    intro sp hsp
    rw [spans] at hsp
    obtain ⟨g, hg, rfl⟩ := List.mem_map.mp hsp
    exact (sound g hg).readable
  obtain ⟨ended, -, quiet⟩ := State.readSpans_readable a.spans readable
  obtain ⟨written, others⟩ := State.chunk_readSpans_groups (index := a.index) (count := a.count) sound
  obtain ⟨st, v, changed⟩ := s.readSpans_eq a.spans
  rw [← spans, changed] at written others
  have flag : (a.spans.any fun sp => (s.chunk sp.chunk).corrects) =
      (List.range a.count).any fun j => decide ((s.chunk (chunkOf map (a.index + j))).changed ≠ []) := by
    rw [← any_groups_eq map a.index pos fun n => decide ((s.chunk n).changed ≠ []), spans, List.any_map,
      Bool.eq_iff_iff, List.any_eq_true, List.any_eq_true]
    refine exists_congr fun g => and_congr_right fun hg => ?_
    simp only [Function.comp, spanOf, (sound g hg).corrects]
  have reads : s.readSpans a.spans = ((s.withStore st).withEvents v, _) := Prod.ext changed ended
  rw [flag, spans, State.deliveredOver_spansOf s map a.index pos sound, ← spans] at reads
  refine ⟨st, v, ?_, written, others, fun clean => ?_⟩
  · rw [State.carryOut_read_ended read reads, readPayload_eq]
  · have untouched : (s.withStore st).withEvents v = s := changed.symm.trans (quiet fun sp hsp => by
      rw [spans] at hsp
      obtain ⟨g, hg, rfl⟩ := List.mem_map.mp hsp
      simp [(sound g hg).corrects, spanOf, clean g hg])
    exact ⟨congrArg State.store untouched, congrArg State.events untouched⟩

/-- A read request that comes to a chunk with two changed bits, those before it sound (R8, R28). -/
theorem State.carryOut_read_stops {g : Nat} (read : a.write = none)
    (spans : a.spans = (groupsOf a.index a.count).map (spanOf map a.index a.count))
    (hg : g ∈ groupsOf a.index a.count) (complete : (s.chunk (chunkOf map (4 * g))).state = .complete)
    (two : (s.chunk (chunkOf map (4 * g))).changed.length = 2)
    (sound : ∀ k ∈ groupsOf a.index a.count, k < g → (s.chunk (chunkOf map (4 * k))).sound) :
    ∃ st v, s.carryOut a = ((((s.withStore st).withEvents v).recordFault .portP (some .readRecords) a.slot (4 * g)
        .memory).damageSlot a.slot, .uncorrectable, beBytes 3 (4 * g)) ∧
      (∀ k ∈ groupsOf a.index a.count, k < g → (s.withStore st).chunk (chunkOf map (4 * k)) =
        { s.chunk (chunkOf map (4 * k)) with changed := [] }) ∧
      ∀ n, (∀ k ∈ groupsOf a.index a.count, k < g → n ≠ chunkOf map (4 * k)) → (s.withStore st).chunk n = s.chunk n := by
  obtain ⟨pre, post, parted, before⟩ := sorted_split (groupsOf_sorted a.index a.count) hg
  have sound' : ∀ k ∈ pre, (s.chunk (chunkOf map (4 * k))).sound := fun k hk =>
    sound k ((before k).mp hk).1 ((before k).mp hk).2
  have readable : ∀ sp ∈ pre.map (spanOf map a.index a.count), (s.chunk sp.chunk).readable := by
    intro sp hsp
    obtain ⟨k, hk, rfl⟩ := List.mem_map.mp hsp
    exact (sound' k hk).readable
  obtain ⟨written, others⟩ := State.chunk_readSpans_groups (index := a.index) (count := a.count) sound'
  have apart : ∀ k ∈ pre, chunkOf map (4 * g) ≠ chunkOf map (4 * k) := by
    intro k hk e
    have s_k := sound' k hk
    rw [← e] at s_k
    rcases s_k with none | ⟨-, one⟩
    · simp [none] at two
    · omega
  have here := others _ apart
  have stop := State.readSpans_stops _ (post.map (spanOf map a.index a.count)) (spanOf map a.index a.count g) readable
    (by rw [spanOf, here]; exact complete) (by rw [spanOf, here]; exact Chunk.outcome_of_two two)
  rw [← List.map_cons, ← List.map_append, ← parted, ← spans] at stop
  obtain ⟨st, v, changed⟩ := s.readSpans_eq (pre.map (spanOf map a.index a.count))
  rw [changed] at stop written others
  refine ⟨st, v, State.carryOut_read_uncorrectable read stop, fun k hk lt => ?_, fun n other => ?_⟩
  · exact written k ((before k).mpr ⟨hk, lt⟩)
  · exact others n fun k hk => other k ((before k).mp hk).1 ((before k).mp hk).2

end request

/-- Settles O13: the reads of the request group by group, to the end or to the first chunk with two changed bits. -/
theorem readRequestDeliversRecords : Obligations.ReadRequestDeliversRecords := by
  intro s a map power holder port read spans pos count_le fits at_ covered good
  have groups : ∀ g, g ∈ groupsOf a.index a.count ↔ covered g := fun g => mem_groupsOf pos
  rw [spansOf_eq map a.index pos] at spans
  have unported := s.carryOut_portP a
  rcases done : s.carryOut a with ⟨t, code, payload⟩
  rw [done] at unported
  obtain ⟨u, run, gone, kept, lost, reply⟩ := exec_portStoreAccessDone power holder port done
  have chunk : ∀ n, u.chunk n = t.chunk n := fun n => by rw [kept]; rfl
  refine ⟨u, run, gone, fun h => (lost h).trans unported, fun all => ?_, fun g hg complete two before => ?_⟩
  · obtain ⟨st, v, e, written, others, quiet⟩ := State.carryOut_read_sound read spans pos fun g hg => all g ((groups g).mp hg)
    cases done.symm.trans e
    refine ⟨by rw [kept]; rfl, fun g hg => ?_, fun n other => ?_, fun clean => ?_, reply⟩
    · exact (chunk _).trans (written g ((groups g).mpr hg))
    · refine (chunk n).trans (others n fun g hg e => other ?_)
      exact (covers_iff pos).mpr ⟨g, hg, e⟩
    · obtain ⟨store, events⟩ := quiet fun g hg => clean g ((groups g).mp hg)
      rw [kept]
      exact ⟨store, events⟩
  · obtain ⟨st, v, e, written, others⟩ := State.carryOut_read_stops read spans ((groups g).mpr hg) complete two
      fun k hk lt => before k lt ((groups k).mp hk)
    obtain ⟨f, faulted, frozen, uncorrectable, whole⟩ :=
      ((s.withStore st).withEvents v).recordFault_memory .readRecords a.slot (4 * g)
    obtain ⟨q, damaged⟩ := (((s.withStore st).withEvents v).withFaultRecord f).damageSlot_eq a.slot
    rw [faulted] at e
    cases done.symm.trans e
    have slots : ∀ k, u.slot k =
        ((((s.withStore st).withEvents v).withFaultRecord f).damageSlot a.slot).slot k :=
      fun k => State.slot_congr (by rw [kept]) k
    rw [damaged] at kept chunk
    refine ⟨by rw [kept]; rfl, fun k lt hk => ?_, fun n other => ?_, reply, ?_⟩
    · exact (chunk _).trans (written k ((groups k).mpr hk) lt)
    · exact (chunk n).trans (others n fun k hk lt => other k lt ((groups k).mp hk))
    · have record : u.faultRecord = f := by rw [kept]; rfl
      rw [record]
      refine ⟨frozen, uncorrectable, whole, fun k other => ?_, ?_⟩
      · exact (slots k).trans (State.slot_damageSlot_other _ other)
      · exact (slots a.slot).trans (State.slot_damageSlot_same _ a.slot)

end Sys2Proof.Machine
end

section
/-! PROOF SUPPORT. Writing chunks (R5) and the write request in its two phases (R4), and O12. -/

namespace Sys2Proof.Machine

open Sys2Proof

/-! ### Records written into a chunk -/

section chunk

variable {c : Chunk}

theorem Chunk.cell_putCell (c : Chunk) {p q : Nat} (hp : p < 4) (hq : q < 4) (v : Cell) :
    (c.putCell p v).cell q = if q = p then v else c.cell q := by
  match p, hp, q, hq with
  | 0, _, 0, _ | 0, _, 1, _ | 0, _, 2, _ | 0, _, 3, _ => rfl
  | 1, _, 0, _ | 1, _, 1, _ | 1, _, 2, _ | 1, _, 3, _ => rfl
  | 2, _, 0, _ | 2, _, 1, _ | 2, _, 2, _ | 2, _, 3, _ => rfl
  | 3, _, 0, _ | 3, _, 1, _ | 3, _, 2, _ | 3, _, 3, _ => rfl

theorem Chunk.changed_putCell (c : Chunk) (p : Nat) (v : Cell) : (c.putCell p v).changed = c.changed := by
  unfold Chunk.putCell
  split <;> rfl

/-- Records written at the positions `ps`, each position its own. -/
def recordsAt (ps : List Nat) (f : Nat → StitchRecord) : List (Nat × StitchRecord) := ps.map fun p => (p, f p)

theorem Chunk.cell_putRecords (c : Chunk) (ps : List Nat) (f : Nat → StitchRecord) (small : ∀ p ∈ ps, p < 4) {q : Nat}
    (hq : q < 4) : (c.putRecords (recordsAt ps f)).cell q = if q ∈ ps then .written (f q) else c.cell q := by
  induction ps generalizing c with
  | nil => rfl
  | cons p rest ih =>
    have later := ih (c.putCell p (.written (f p))) fun x hx => small x (List.mem_cons_of_mem _ hx)
    refine later.trans ?_
    rw [Chunk.cell_putCell c (small p List.mem_cons_self) hq]
    by_cases e : q = p
    · simp [e]
    · simp [e]

theorem Chunk.changed_putRecords (c : Chunk) (rs : List (Nat × StitchRecord)) : (c.putRecords rs).changed = c.changed := by
  induction rs generalizing c with
  | nil => rfl
  | cons r rest ih => exact (ih _).trans (Chunk.changed_putCell c _ _)

theorem Chunk.cell_sealUnchecked (c : Chunk) {q : Nat} (hq : q < 4) :
    c.sealUnchecked.cell q = (c.cell q).holding (c.uncheckedRecordAt q) := by
  rw [Chunk.sealUnchecked_eq]
  match q, hq with
  | 0, _ | 1, _ | 2, _ | 3, _ => rfl

/-! ### A chunk after the second phase (R5) -/

/-- The changed bits that a write to the positions `ps` leaves standing. -/
def Chunk.unwritten (c : Chunk) (ps : List Nat) : Chunk :=
  { c with changed := c.changed.filter fun b => !(ps.contains (b / Config.positionBits)) }

/-- A COMPLETE chunk is merged with its corrected content. -/
theorem Chunk.write_complete (h : c.state = .complete) (rs : List (Nat × StitchRecord)) :
    c.write rs = c.corrected.putRecords rs := by
  simp only [Chunk.write, h]

/-- Another chunk takes the records, and a check code once all four of its positions stand. -/
theorem Chunk.write_unchecked (h : c.state ≠ .complete) (ps : List Nat) (f : Nat → StitchRecord) :
    c.write (recordsAt ps f) = (c.unwritten ps).putRecords (recordsAt ps f) ∨
      c.write (recordsAt ps f) = ((c.unwritten ps).putRecords (recordsAt ps f)).sealUnchecked := by
  have positions : (recordsAt ps f).map Prod.fst = ps := by simp [recordsAt, Function.comp_def]
  unfold Chunk.write
  split
  · next complete => exact absurd complete h
  · simp only [positions]
    split
    · exact .inr rfl
    · exact .inl rfl

variable {ps : List Nat} {f : Nat → StitchRecord}

/-- A position that a write names holds its record. -/
theorem Chunk.cell_write_named (small : ∀ p ∈ ps, p < 4) {q : Nat} (hq : q ∈ ps) :
    (c.write (recordsAt ps f)).cell q = .written (f q) := by
  have four := small q hq
  by_cases complete : c.state = .complete
  · rw [Chunk.write_complete complete, Chunk.cell_putRecords _ _ _ small four, if_pos hq]
  · have put : ((c.unwritten ps).putRecords (recordsAt ps f)).cell q = .written (f q) := by
      rw [Chunk.cell_putRecords _ _ _ small four, if_pos hq]
    rcases Chunk.write_unchecked complete ps f with e | e
    · rw [e, put]
    · have none : ((c.unwritten ps).putRecords (recordsAt ps f)).changedAt q = [] := by
        rw [Chunk.changedAt, Chunk.changed_putRecords, Chunk.unwritten, List.filter_filter, List.filter_eq_nil_iff]
        intro b _
        by_cases here : b / Config.positionBits = q
        · simp [here, hq]
        · simp [here]
      rw [e, Chunk.cell_sealUnchecked _ four, Chunk.uncheckedRecordAt_of_none none, Cell.holding_content, put]

/-- A position that a write does not name keeps its content, and no changed bit stands in the chunk, where none did or the
chunk was COMPLETE with at most two. -/
theorem Chunk.cell_write_other (small : ∀ p ∈ ps, p < 4) {q : Nat} (four : q < 4) (hq : q ∉ ps)
    (few : c.changed = [] ∨ c.state = .complete ∧ c.changed.length ≤ 2) :
    (c.write (recordsAt ps f)).cell q = c.cell q ∧ (c.write (recordsAt ps f)).changed = [] := by
  by_cases complete : c.state = .complete
  · have le : c.changed.length ≤ 2 := by
      rcases few with e | ⟨-, le⟩
      · simp [e]
      · exact le
    rw [Chunk.write_complete complete, Chunk.corrected_of_few le, Chunk.cell_putRecords _ _ _ small four, if_neg hq,
      Chunk.changed_putRecords, Chunk.cell_changed]
    exact ⟨rfl, rfl⟩
  · have clean : c.changed = [] := few.resolve_right fun both => complete both.1
    have put : ((c.unwritten ps).putRecords (recordsAt ps f)).cell q = c.cell q := by
      rw [Chunk.cell_putRecords _ _ _ small four, if_neg hq, Chunk.unwritten, Chunk.cell_changed]
    have none : ((c.unwritten ps).putRecords (recordsAt ps f)).changed = [] := by
      rw [Chunk.changed_putRecords, Chunk.unwritten, clean]
      rfl
    rcases Chunk.write_unchecked complete ps f with e | e
    · rw [e]
      exact ⟨put, none⟩
    · have at_q : ((c.unwritten ps).putRecords (recordsAt ps f)).changedAt q = [] := by rw [Chunk.changedAt, none]; rfl
      rw [e, Chunk.cell_sealUnchecked _ four, Chunk.uncheckedRecordAt_of_none at_q, Cell.holding_content]
      exact ⟨put, rfl⟩

/-- The read of the first phase leaves the content of a chunk in which at most two bits have changed. -/
theorem Chunk.afterRead_few (few : c.changed = [] ∨ c.state = .complete ∧ c.changed.length ≤ 2) :
    (∀ q, c.afterRead.cell q = c.cell q) ∧
      (c.afterRead.changed = [] ∨ c.afterRead.state = .complete ∧ c.afterRead.changed.length ≤ 2) := by
  unfold Chunk.afterRead
  split
  · have le : c.changed.length ≤ 2 := by
      rcases few with e | ⟨-, le⟩
      · simp [e]
      · exact le
    rw [Chunk.corrected_of_few le]
    exact ⟨Chunk.cell_changed c [], .inl rfl⟩
  · exact ⟨fun _ => rfl, few⟩

end chunk

/-! ### The two phases of a write request (R4) -/

variable {s : State}

/-- The second phase writes each chunk of its spans, no two of which share one, and no other chunk. -/
theorem State.chunk_writeSpans (index : Nat) (rs : List StitchRecord) (spans : List Span)
    (apart : spans.Pairwise fun a b => a.chunk ≠ b.chunk) :
    (∀ sp ∈ spans, (s.writeSpans index rs spans).chunk sp.chunk = (s.chunk sp.chunk).write (sp.cells index rs)) ∧
      ∀ n, (∀ sp ∈ spans, n ≠ sp.chunk) → (s.writeSpans index rs spans).chunk n = s.chunk n := by
  induction spans generalizing s with
  | nil => exact ⟨nofun, fun _ _ => rfl⟩
  | cons sp rest ih =>
    obtain ⟨first, others⟩ := List.pairwise_cons.mp apart
    obtain ⟨written, kept⟩ := ih (s := s.putChunk sp.chunk ((s.chunk sp.chunk).write (sp.cells index rs))) others
    refine ⟨fun q hq => ?_, fun n hn => ?_⟩
    · rw [State.writeSpans]
      rcases List.mem_cons.mp hq with rfl | hq
      · rw [kept _ fun x hx => first x hx, State.chunk_putChunk, if_pos rfl]
      · rw [written q hq, State.chunk_putChunk, if_neg (first q hq).symm]
    · rw [State.writeSpans, kept n fun x hx => hn x (List.mem_cons_of_mem _ hx), State.chunk_putChunk,
        if_neg (hn sp List.mem_cons_self)]

theorem namedIn_lt {index count g : Nat} : ∀ p ∈ namedIn index count g, p < 4 := fun _ hp => (mem_namedIn.mp hp).1

/-- A chunk is not covered in full where a position that is not padding is not named (R5). -/
theorem Chunk.coveredBy_eq_false {c : Chunk} {ps : List Nat} :
    c.coveredBy ps = false ↔ ∃ p, p < 4 ∧ c.cell p ≠ .padding ∧ p ∉ ps := by
  simp only [Chunk.coveredBy, ← Bool.not_eq_true, List.all_eq_true, not_forall, Bool.or_eq_true, List.contains_iff_mem,
    decide_eq_true_eq, not_or]
  constructor
  · rintro ⟨p, hp, out, cell⟩
    refine ⟨p, ?_, cell, out⟩
    simp only [List.mem_cons, List.not_mem_nil, or_false] at hp
    omega
  · rintro ⟨p, hp, cell, out⟩
    refine ⟨p, ?_, out, cell⟩
    simp only [List.mem_cons, List.not_mem_nil, or_false]
    omega

end Sys2Proof.Machine
end

section
/-! PROOF SUPPORT. The write request as a whole (R4, R12, R27): every position it names, or none; and O12. -/

namespace Sys2Proof.Machine

open Sys2Proof

section request

variable {s t : State} {a : PortAccess} {map : List Nat} {rs : List StitchRecord}

theorem State.carryOut_write_ended {flag : Bool} {records : List StitchRecord} (write : a.write = some rs)
    (unlocked : ∀ sp ∈ a.spans, s.runLocked (sp.chunk / Config.blockChunks) = false)
    (e : s.readSpans (s.firstPhaseSpans a.spans) = (t, .ended records flag)) :
    s.carryOut a = (t.writeSpans a.index rs a.spans, .ok, []) := by
  have free : (a.spans.any fun sp => s.runLocked (sp.chunk / Config.blockChunks)) = false := by
    rw [List.any_eq_false]
    exact fun sp hsp => by simp [unlocked sp hsp]
  simp only [State.carryOut, write, free, State.writeRequest, e]
  rfl

theorem State.carryOut_write_uncorrectable {first : Nat} (write : a.write = some rs)
    (unlocked : ∀ sp ∈ a.spans, s.runLocked (sp.chunk / Config.blockChunks) = false)
    (e : s.readSpans (s.firstPhaseSpans a.spans) = (t, .uncorrectable first)) :
    s.carryOut a = (t.recordFault .portP (some .writeRecords) a.slot first .memory, .uncorrectable, beBytes 3 first) := by
  have free : (a.spans.any fun sp => s.runLocked (sp.chunk / Config.blockChunks)) = false := by
    rw [List.any_eq_false]
    exact fun sp hsp => by simp [unlocked sp hsp]
  simp only [State.carryOut, write, free, State.writeRequest, e]
  rfl

/-! ### The chunks that the first phase reads -/

/-- The groups of a write request that its first phase reads: COMPLETE and covered only in part (R4). -/
def State.checkedGroups (s : State) (map : List Nat) (index count : Nat) : List Nat :=
  (groupsOf index count).filter fun g =>
    decide ((s.chunk (chunkOf map (4 * g))).state = .complete) &&
      !((s.chunk (chunkOf map (4 * g))).coveredBy (namedIn index count g))

theorem State.firstPhaseSpans_groups (s : State) (map : List Nat) (index count : Nat) :
    s.firstPhaseSpans ((groupsOf index count).map (spanOf map index count)) =
      (s.checkedGroups map index count).map (spanOf map index count) := List.filter_map

theorem State.mem_checkedGroups {index count g : Nat} : g ∈ s.checkedGroups map index count ↔
    g ∈ groupsOf index count ∧ (s.chunk (chunkOf map (4 * g))).state = .complete ∧
      ∃ p, p < 4 ∧ (s.chunk (chunkOf map (4 * g))).cell p ≠ .padding ∧ p ∉ namedIn index count g := by
  rw [State.checkedGroups, List.mem_filter, Bool.and_eq_true, Bool.not_eq_true', Chunk.coveredBy_eq_false,
    decide_eq_true_eq]

theorem State.checkedGroups_sorted (s : State) (map : List Nat) (index count : Nat) :
    (s.checkedGroups map index count).Pairwise (· < ·) := (groupsOf_sorted index count).filter _

/-- In a block map without repetition no two groups of a request share a chunk. -/
theorem spansOf_apart {index count : Nat} (pos : 1 ≤ count) (fits : index + count ≤ 512 * map.length) (nodup : map.Nodup) :
    ((groupsOf index count).map (spanOf map index count)).Pairwise fun a b => a.chunk ≠ b.chunk := by
  rw [List.pairwise_map]
  refine (groupsOf_sorted index count).imp_of_mem fun {g k} hg hk lt e => ?_
  have same := chunkOf_four_inj nodup (lt_of_mem_groupsOf pos fits hg) (lt_of_mem_groupsOf pos fits hk) e
  omega

/-- The blocks of a request are blocks of its map. -/
theorem chunkOf_block_mem {index count g : Nat} (pos : 1 ≤ count) (fits : index + count ≤ 512 * map.length)
    (hg : g ∈ groupsOf index count) : chunkOf map (4 * g) / Config.blockChunks ∈ map := by
  have below := lt_of_mem_groupsOf pos fits hg
  rw [chunkOf_four, List.getD_eq_getElem _ _ below]
  have block : (map[g / 128] * 128 + g % 128) / Config.blockChunks = map[g / 128] := by
    simp only [Config.blockChunks]
    omega
  rw [block]
  exact List.getElem_mem below

theorem Chunk.afterRead_of_not_corrected {c : Chunk} (h : c.outcome ≠ .corrected) : c.afterRead = c := by
  simp [Chunk.afterRead, Chunk.corrects, h]

theorem Chunk.afterRead_of_corrected {c : Chunk} (complete : c.state = .complete) (h : c.outcome = .corrected) :
    c.afterRead = c.corrected := by
  simp [Chunk.afterRead, Chunk.corrects, complete, h]

/-- The first phase over checked groups that can all be read: the chunks found corrected are written back. -/
theorem State.chunk_readSpans_checked {index count : Nat} {l : List Nat}
    (readable : ∀ g ∈ l, (s.chunk (chunkOf map (4 * g))).readable) (n : Nat) :
    (s.readSpans (l.map (spanOf map index count))).1.chunk n =
      if ∃ g ∈ l, n = chunkOf map (4 * g) then (s.chunk n).afterRead else s.chunk n := by
  have spans : ∀ sp ∈ l.map (spanOf map index count), (s.chunk sp.chunk).readable := by
    intro sp hsp
    obtain ⟨g, hg, rfl⟩ := List.mem_map.mp hsp
    exact readable g hg
  obtain ⟨-, chunks, -⟩ := State.readSpans_readable _ spans
  have mem : n ∈ (l.map (spanOf map index count)).map (·.chunk) ↔ ∃ g ∈ l, n = chunkOf map (4 * g) := by
    simp [spanOf, eq_comm]
  rw [chunks]
  by_cases here : ∃ g ∈ l, n = chunkOf map (4 * g)
  · rw [if_pos (mem.mpr here), if_pos here]
  · rw [if_neg (mem.not.mpr here), if_neg here]

/-! ### The positions of a chunk written -/

/-- A written chunk holds each record of the request in the place of its index. -/
theorem State.cellAt_write_named {u : State} {c : Chunk} {index j : Nat} (hj : j < rs.length)
    (put : u.chunk (chunkOf map (4 * ((index + j) / 4))) =
      c.write (recordsAt (namedIn index rs.length ((index + j) / 4)) fun p =>
        rs.getD (4 * ((index + j) / 4) + p - index) endOfDesign)) :
    u.cellAt map (index + j) = .written (rs.getD j endOfDesign) := by
  have place : 4 * ((index + j) / 4) + (index + j) % 4 = index + j := Nat.div_add_mod _ 4
  have four : (index + j) % 4 < 4 := Nat.mod_lt _ (by norm_num)
  have named : (index + j) % 4 ∈ namedIn index rs.length ((index + j) / 4) := mem_namedIn.mpr ⟨four, by omega, by omega⟩
  calc u.cellAt map (index + j) = u.cellAt map (4 * ((index + j) / 4) + (index + j) % 4) := by rw [place]
    _ = .written (rs.getD (4 * ((index + j) / 4) + (index + j) % 4 - index) endOfDesign) := by
      rw [State.cellAt_group u map _ four, put, Chunk.cell_write_named namedIn_lt named]
    _ = .written (rs.getD j endOfDesign) := by rw [place, Nat.add_sub_cancel_left]

/-- A chunk written, as it was or after its first-phase read, keeps each position that the request does not name. -/
theorem State.cellAt_write_other {u : State} {c d : Chunk} {index count g p : Nat} {f : Nat → StitchRecord}
    (left : c = d ∨ c = d.afterRead) (put : u.chunk (chunkOf map (4 * g)) = c.write (recordsAt (namedIn index count g) f))
    (four : p < 4) (out : p ∉ namedIn index count g) (few : d.changed = [] ∨ d.state = .complete ∧ d.changed.length ≤ 2) :
    u.cellAt map (4 * g + p) = d.cell p ∧ (u.chunk (chunkOf map (4 * g))).changed = [] := by
  have same : (∀ q, c.cell q = d.cell q) ∧ (c.changed = [] ∨ c.state = .complete ∧ c.changed.length ≤ 2) := by
    rcases left with rfl | rfl
    · exact ⟨fun _ => rfl, few⟩
    · exact Chunk.afterRead_few few
  rw [State.cellAt_group u map g four, put, ← same.1 p]
  exact Chunk.cell_write_other namedIn_lt four out same.2

/-! ### The two ends of a write request -/

/-- A write request none of whose checked chunks is uncorrectable writes every chunk it covers, each as its first phase has
left it, and no other. -/
theorem State.carryOut_write_all (write : a.write = some rs)
    (spans : a.spans = (groupsOf a.index rs.length).map (spanOf map a.index rs.length))
    (unlocked : ∀ sp ∈ a.spans, s.runLocked (sp.chunk / Config.blockChunks) = false)
    (apart : a.spans.Pairwise fun a b => a.chunk ≠ b.chunk)
    (readable : ∀ g ∈ s.checkedGroups map a.index rs.length, (s.chunk (chunkOf map (4 * g))).outcome ≠ .uncorrectable) :
    ∃ st v, s.carryOut a = ((s.withStore st).withEvents v, .ok, []) ∧
      (∀ g ∈ groupsOf a.index rs.length, ∃ c,
        (c = s.chunk (chunkOf map (4 * g)) ∨ c = (s.chunk (chunkOf map (4 * g))).afterRead) ∧
        (s.withStore st).chunk (chunkOf map (4 * g)) =
          c.write (recordsAt (namedIn a.index rs.length g) fun p => rs.getD (4 * g + p - a.index) endOfDesign)) ∧
      (∀ n, (∀ g ∈ groupsOf a.index rs.length, n ≠ chunkOf map (4 * g)) → (s.withStore st).chunk n = s.chunk n) ∧
      ((∀ g ∈ s.checkedGroups map a.index rs.length, (s.chunk (chunkOf map (4 * g))).outcome = .clean) → v = s.events) := by
  have phase := s.firstPhaseSpans_groups map a.index rs.length
  rw [← spans] at phase
  have all_readable : ∀ sp ∈ s.firstPhaseSpans a.spans, (s.chunk sp.chunk).readable := by
    intro sp hsp _
    rw [phase] at hsp
    obtain ⟨g, hg, rfl⟩ := List.mem_map.mp hsp
    exact readable g hg
  obtain ⟨ended, -, quiet⟩ := State.readSpans_readable _ all_readable
  have chunks := fun n => State.chunk_readSpans_checked (s := s) (map := map) (index := a.index) (count := rs.length)
    (l := s.checkedGroups map a.index rs.length) (fun g hg _ => readable g hg) n
  rw [← phase] at chunks
  obtain ⟨st, v, changed⟩ := s.readSpans_eq (s.firstPhaseSpans a.spans)
  have reads : s.readSpans (s.firstPhaseSpans a.spans) = ((s.withStore st).withEvents v, _) := Prod.ext changed ended
  rw [changed] at chunks
  obtain ⟨st2, second⟩ := ((s.withStore st).withEvents v).writeSpans_eq a.index rs a.spans
  obtain ⟨written, kept⟩ := State.chunk_writeSpans (s := (s.withStore st).withEvents v) a.index rs a.spans apart
  rw [second] at written kept
  refine ⟨st2, v, (State.carryOut_write_ended write unlocked reads).trans (by rw [second]; rfl), fun g hg => ?_,
    fun n other => ?_, fun clean => ?_⟩
  · have mem : spanOf map a.index rs.length g ∈ a.spans := by rw [spans]; exact List.mem_map_of_mem hg
    refine ⟨((s.withStore st).withEvents v).chunk (chunkOf map (4 * g)), ?_, written _ mem⟩
    rw [chunks]
    split
    · exact .inr rfl
    · exact .inl rfl
  · have unread : ¬ ∃ g ∈ s.checkedGroups map a.index rs.length, n = chunkOf map (4 * g) := by
      rintro ⟨g, hg, e⟩
      exact other g (State.mem_checkedGroups.mp hg).1 e
    have unwritten : ∀ sp ∈ a.spans, n ≠ sp.chunk := by
      intro sp hsp
      rw [spans] at hsp
      obtain ⟨g, hg, rfl⟩ := List.mem_map.mp hsp
      exact other g hg
    exact (kept n unwritten).trans ((chunks n).trans (if_neg unread))
  · have untouched : (s.withStore st).withEvents v = s := changed.symm.trans (quiet fun sp hsp => by
      rw [phase] at hsp
      obtain ⟨g, hg, rfl⟩ := List.mem_map.mp hsp
      simp [Chunk.corrects, spanOf, clean g hg])
    exact congrArg State.events untouched

/-- A write request that comes to an uncorrectable checked chunk writes nothing: the chunks found corrected before it are
written back, and the fault is recorded. -/
theorem State.carryOut_write_none {g : Nat} (write : a.write = some rs)
    (spans : a.spans = (groupsOf a.index rs.length).map (spanOf map a.index rs.length))
    (unlocked : ∀ sp ∈ a.spans, s.runLocked (sp.chunk / Config.blockChunks) = false)
    (hg : g ∈ s.checkedGroups map a.index rs.length)
    (bad : (s.chunk (chunkOf map (4 * g))).outcome = .uncorrectable)
    (before : ∀ k ∈ s.checkedGroups map a.index rs.length, k < g →
      (s.chunk (chunkOf map (4 * k))).outcome ≠ .uncorrectable) :
    ∃ st v, s.carryOut a = (((s.withStore st).withEvents v).recordFault .portP (some .writeRecords) a.slot (4 * g) .memory,
        .uncorrectable, beBytes 3 (4 * g)) ∧
      (∀ k ∈ s.checkedGroups map a.index rs.length, k < g →
        (s.withStore st).chunk (chunkOf map (4 * k)) = (s.chunk (chunkOf map (4 * k))).afterRead) ∧
      ∀ n, (∀ k ∈ s.checkedGroups map a.index rs.length, k < g → n = chunkOf map (4 * k) →
        (s.chunk n).outcome ≠ .corrected) → (s.withStore st).chunk n = s.chunk n := by
  obtain ⟨pre, post, parted, front⟩ := sorted_split (s.checkedGroups_sorted map a.index rs.length) hg
  have phase := s.firstPhaseSpans_groups map a.index rs.length
  rw [← spans, parted, List.map_append, List.map_cons] at phase
  have readable : ∀ k ∈ pre, (s.chunk (chunkOf map (4 * k))).readable := fun k hk _ =>
    before k ((front k).mp hk).1 ((front k).mp hk).2
  have spans_readable : ∀ sp ∈ pre.map (spanOf map a.index rs.length), (s.chunk sp.chunk).readable := by
    intro sp hsp
    obtain ⟨k, hk, rfl⟩ := List.mem_map.mp hsp
    exact readable k hk
  have chunks := State.chunk_readSpans_checked (index := a.index) (count := rs.length) readable
  have here : (s.readSpans (pre.map (spanOf map a.index rs.length))).1.chunk (chunkOf map (4 * g)) =
      s.chunk (chunkOf map (4 * g)) := by
    rw [chunks, Chunk.afterRead_of_not_corrected (by simp [bad]), ite_self]
  obtain ⟨-, complete, -⟩ := State.mem_checkedGroups.mp hg
  have stop := State.readSpans_stops _ (post.map (spanOf map a.index rs.length)) (spanOf map a.index rs.length g)
    spans_readable (by rw [spanOf, here]; exact complete) (by rw [spanOf, here]; exact bad)
  rw [← phase] at stop
  obtain ⟨st, v, changed⟩ := s.readSpans_eq (pre.map (spanOf map a.index rs.length))
  rw [changed] at stop chunks
  refine ⟨st, v, State.carryOut_write_uncorrectable write unlocked stop, fun k hk lt => ?_, fun n other => ?_⟩
  · exact (chunks _).trans (if_pos ⟨k, (front k).mpr ⟨hk, lt⟩, rfl⟩)
  · refine (chunks n).trans ?_
    split
    · next read =>
      obtain ⟨k, hk, e⟩ := read
      exact Chunk.afterRead_of_not_corrected (other k ((front k).mp hk).1 ((front k).mp hk).2 e)
    · rfl

end request

/-- Settles O12: the first phase decides whether the second writes every position or none. -/
theorem writeRequestAllOrNone : Obligations.WriteRequestAllOrNone := by
  intro s a map rs power holder port write spans pos fits nodup free at_ named checked bad
  rw [spansOf_eq map a.index pos] at spans
  have groups : ∀ g, g ∈ groupsOf a.index rs.length ↔ ∃ p, p < 4 ∧ named (4 * g + p) := fun g => mem_groupsOf pos
  have names : ∀ g p, p < 4 → (p ∈ namedIn a.index rs.length g ↔ named (4 * g + p)) := fun g p four =>
    mem_namedIn.trans (and_iff_right four)
  have checks : ∀ g, g ∈ s.checkedGroups map a.index rs.length ↔ checked g := by
    intro g
    rw [State.mem_checkedGroups, groups]
    refine and_congr_right fun _ => and_congr_right fun _ => exists_congr fun p => and_congr_right fun four => ?_
    rw [names g p four]
  have unlocked : ∀ sp ∈ a.spans, s.runLocked (sp.chunk / Config.blockChunks) = false := by
    intro sp hsp
    rw [spans] at hsp
    obtain ⟨g, hg, rfl⟩ := List.mem_map.mp hsp
    exact free _ (chunkOf_block_mem pos fits hg)
  have apart : a.spans.Pairwise fun a b => a.chunk ≠ b.chunk := spans ▸ spansOf_apart pos fits nodup
  have unported := s.carryOut_portP a
  rcases done : s.carryOut a with ⟨t, code, payload⟩
  rw [done] at unported
  obtain ⟨u, run, gone, kept, lost, reply⟩ := exec_portStoreAccessDone power holder port done
  have chunk : ∀ n, u.chunk n = t.chunk n := fun n => by rw [kept]; rfl
  have lost_port : a.replyLost = true → u.portP = s.portP := fun h => (lost h).trans unported
  by_cases fine : ∀ g, ¬ bad g
  · obtain ⟨st, v, e, written, others, quiet⟩ := State.carryOut_write_all write spans unlocked apart
      fun g hg => fun o => fine g ⟨(checks g).mp hg, o⟩
    cases done.symm.trans e
    refine ⟨u, run, gone, by rw [kept]; rfl, fun n other => ?_, lost_port, fun _ => ?_, fun g found => absurd found (fine g)⟩
    · exact (chunk n).trans (others n fun g hg e => other ((covers_iff pos).mpr ⟨g, hg, e⟩))
    refine ⟨by rw [kept]; rfl, reply, fun j hj => ?_, fun clean => ?_, fun g p hg four out few => ?_⟩
    · obtain ⟨c, -, put⟩ := written ((a.index + j) / 4) ((groups _).mpr ⟨(a.index + j) % 4, Nat.mod_lt _ (by norm_num), by
        rw [Nat.div_add_mod]; exact ⟨by omega, by omega⟩⟩)
      exact State.cellAt_write_named hj ((chunk _).trans put)
    · have events : u.events = v := by rw [kept]; rfl
      exact events.trans (quiet fun g hg => clean g ((checks g).mp hg))
    · obtain ⟨c, left, put⟩ := written g ((groups g).mpr hg)
      exact State.cellAt_write_other left ((chunk _).trans put) four ((names g p four).not.mpr out) few
  · have some_bad : ∃ g, bad g := by simpa using fine
    classical
    obtain ⟨first, isBad, least⟩ : ∃ g, bad g ∧ ∀ k, k < g → ¬ bad k :=
      ⟨Nat.find some_bad, Nat.find_spec some_bad, fun k lt => Nat.find_min some_bad lt⟩
    obtain ⟨st, v, e, corrected, others⟩ := State.carryOut_write_none write spans unlocked ((checks first).mpr isBad.1)
      isBad.2 fun k hk lt o => least k lt ⟨(checks k).mp hk, o⟩
    obtain ⟨f, faulted, frozen, uncorrectable, whole⟩ :=
      ((s.withStore st).withEvents v).recordFault_memory .writeRecords a.slot (4 * first)
    rw [faulted] at e
    cases done.symm.trans e
    refine ⟨u, run, gone, by rw [kept]; rfl, fun n other => ?_, lost_port, fun none => absurd some_bad (by simpa using none),
      fun g found earlier => ?_⟩
    · refine (chunk n).trans (others n fun k hk _ e => absurd ?_ other)
      exact (covers_iff pos).mpr ⟨k, (State.mem_checkedGroups.mp hk).1, e⟩
    obtain rfl : g = first := by
      rcases lt_trichotomy g first with lt | e | lt
      · exact absurd found (least g lt)
      · exact e
      · exact absurd isBad (earlier first lt)
    have record : u.faultRecord = f := by rw [kept]; rfl
    rw [record]
    refine ⟨reply, frozen, uncorrectable, whole, fun k lt hk o => ?_, fun n other => ?_⟩
    · refine (chunk _).trans ((corrected k ((checks k).mpr hk) lt).trans ?_)
      exact Chunk.afterRead_of_corrected hk.2.1 o
    · refine (chunk n).trans (others n fun k hk lt e o => ?_)
      exact other k lt ((checks k).mp hk) (by rw [e] at o; exact o) e

end Sys2Proof.Machine
end

section
/-! PROOF SUPPORT. Frames refused and answered, the arbiter's grants (R14), and O10: a record frame becomes one request. -/

namespace Sys2Proof.Machine

open Sys2Proof

variable {s : State}

/-! ### Frames that are answered (R164, R168) -/

/-- A reply placed leaves the status byte it carries. -/
theorem State.statusByte_reply (s : State) (port : Port) (code : ReplyCode) (payload : List Byte) :
    (s.reply port code payload).statusByte port = s.statusByte port := by
  cases port <;> rfl

/-- A reply placed where the frame has ended answers it. -/
theorem State.answers_reply {u : State} {port : Port} (code : ReplyCode) (payload : List Byte)
    (h : u.port port = { s.port port with frame := .closed }) : s.answers (u.reply port code payload) port code payload := by
  rw [State.answers, State.statusByte_reply, State.reply_eq, State.port_putPort, if_pos rfl, h]

/-- The state in which the body of a frame on port P that is taken runs. -/
def State.framed (s : State) : State := (s.loseReply .p).closeFrame .p

theorem State.framed_eq (s : State) : s.framed =
    { s with arbiter := (s.loseReply .p).arbiter, portP := { s.portP with frame := .closed } } := rfl

/-- A frame on port P that is taken and refused changes its port alone and answers with the code. -/
theorem State.refused_onFrame {code : ReplyCode} {body : State → State} (takes : s.takesFrame .p = true)
    (refused : body s.framed = s.framed.refuse .p code) :
    s.onlyPort (s.onFrame .p body) .p ∧ s.answers (s.onFrame .p body) .p code [] := by
  rw [State.onFrame_taken s .p body takes]
  change s.onlyPort (body s.framed) .p ∧ s.answers (body s.framed) .p code []
  rw [refused]
  exact ⟨rfl, State.answers_reply code [] rfl⟩

/-! ### Grants of the path (R14) -/

theorem Arbiter.grantTo_waiting {a : Arbiter} {r : Requester} {x : StoreRead} (h : a.request r = .waiting x) :
    a.grantTo r = some { a.putRequest r (.served x true) with holder := some (.internal r) } := by
  simp only [Arbiter.grantTo, h]

theorem Arbiter.grantTo_none {a : Arbiter} {r : Requester} (h : ∀ x, a.request r ≠ .waiting x) : a.grantTo r = none := by
  unfold Arbiter.grantTo
  split
  · next x e => exact absurd e (h x)
  · rfl

/-- A free path for which no internal request waits goes to port P. -/
theorem Arbiter.grant_toPort {a : Arbiter} (free : a.holder = none) (idle : ∀ r x, a.request r ≠ .waiting x)
    (port : a.portP.isSome = true) : a.grant = { a with holder := some .portP } := by
  simp only [Arbiter.grant, free, Arbiter.grantTo_none (idle _), port, if_true]

/-- A free path for which one internal request waits alone goes to it. -/
theorem Arbiter.grant_toOnly {a : Arbiter} {r : Requester} {x : StoreRead} (free : a.holder = none)
    (waits : a.request r = .waiting x) (alone : ∀ q, q ≠ r → ∀ y, a.request q ≠ .waiting y) :
    a.grant = { a.putRequest r (.served x true) with holder := some (.internal r) } := by
  have granted := Arbiter.grantTo_waiting waits
  have other : ∀ q, q ≠ r → a.grantTo q = none := fun q ne => Arbiter.grantTo_none (alone q ne)
  unfold Arbiter.grant
  rw [free]
  cases r with
  | sequencer => rw [granted]
  | trace => rw [other .sequencer nofun, granted]
  | walk => rw [other .sequencer nofun, other .trace nofun, granted]
  | closeScan => rw [other .sequencer nofun, other .trace nofun, other .walk nofun, granted]

theorem Arbiter.putRequest_putRequest (a : Arbiter) (r : Requester) (v w : RequestState) :
    (a.putRequest r v).putRequest r w = a.putRequest r w := by
  cases r <;> rfl

/-- An idle requester that asks while the path is held waits for it. -/
theorem State.askRead_held {r : Requester} (x : StoreRead) (idle : s.arbiter.request r = .idle)
    (held : s.arbiter.holder ≠ none) : s.askRead r x = s.withArbiter (s.arbiter.putRequest r (.waiting x)) := by
  obtain ⟨h, e⟩ := Option.ne_none_iff_exists'.mp held
  have kept : (s.arbiter.putRequest r (.waiting x)).holder = some h := by rw [Arbiter.holder_putRequest, e]
  simp only [State.askRead, idle, Arbiter.grant_held kept]

/-- An idle requester that asks for a free path for which no other waits is served. -/
theorem State.askRead_free {r : Requester} (x : StoreRead) (idle : s.arbiter.request r = .idle)
    (free : s.arbiter.holder = none) (alone : ∀ q y, s.arbiter.request q ≠ .waiting y) :
    s.askRead r x = s.withArbiter { s.arbiter.putRequest r (.served x true) with holder := some (.internal r) } := by
  have granted := Arbiter.grant_toOnly (a := s.arbiter.putRequest r (.waiting x)) (r := r) (x := x)
    (by rw [Arbiter.holder_putRequest, free]) (by rw [Arbiter.request_putRequest, if_pos rfl])
    (fun q ne y => by rw [Arbiter.request_putRequest, if_neg ne]; exact alone q y)
  rw [Arbiter.putRequest_putRequest] at granted
  simp only [State.askRead, idle, granted]

/-- A requester that is not idle asks for nothing. -/
theorem State.askRead_busy {r : Requester} (x : StoreRead) (busy : s.arbiter.request r ≠ .idle) : s.askRead r x = s := by
  unfold State.askRead
  split
  · next idle => exact absurd idle busy
  · rfl

/-! ### Record frames (R15, R20, R22, R26, R28) -/

/-- With no port P request outstanding a record frame makes its own, and its reply is owed. -/
theorem State.askPortAccess_eq (slot index count : Nat) (write : Option (List StitchRecord)) (h : s.arbiter.portP = none) :
    s.askPortAccess slot index count write =
      (s.withPortP { s.portP with reply := .empty }).withArbiter
        (({ s.arbiter with portP := some ⟨slot, index, count, spansOf (s.slot slot).blockMap index count, write, false⟩ } :
          Arbiter).grant) := by
  have settled : s.settlePortAccess = s := by simp only [State.settlePortAccess, h]
  unfold State.askPortAccess
  rw [settled]
  rfl

/-- What a record frame that makes its request leaves (R13, R15, R20). -/
theorem State.recordFrame_asks {body : State → State} {slot index count : Nat} {write : Option (List StitchRecord)}
    (takes : s.takesFrame .p = true) (none_owed : s.arbiter.portP = none)
    (asks : body s.framed = s.framed.askPortAccess slot index count write) :
    ∃ t, (.next (s.onFrame .p body) : Result) = .next t ∧ t = { s with portP := t.portP, arbiter := t.arbiter } ∧
      t.portP = { s.portP with reply := .empty, frame := .closed } ∧
      t.arbiter.portP = some ⟨slot, index, count, spansOf (s.slot slot).blockMap index count, write, false⟩ ∧
      (s.arbiter.holder ≠ none → t.arbiter.holder = s.arbiter.holder) ∧
      (s.arbiter.holder = none → (∀ r x, s.arbiter.request r ≠ .waiting x) → t.arbiter.holder = some .portP) := by
  refine ⟨_, rfl, ?_⟩
  have arbiter : s.framed.arbiter = s.arbiter := by rw [State.framed_eq, s.loseReply_none .p none_owed]
  have ran : s.onFrame .p body = _ := (State.onFrame_taken s .p body takes).trans asks
  rw [ran, State.askPortAccess_eq _ _ _ _ (by rw [arbiter, none_owed])]
  refine ⟨rfl, rfl, Arbiter.grant_portP _, fun held => ?_, fun free idle => ?_⟩
  · obtain ⟨h, e⟩ := Option.ne_none_iff_exists'.mp held
    rw [State.withArbiter_arbiter, Arbiter.grant_held (x := h) (by rw [arbiter]; exact e), arbiter]
  · rw [State.withArbiter_arbiter, Arbiter.grant_toPort (by rw [arbiter]; exact free) (fun r x => ?_) rfl]
    rw [arbiter]
    have other := idle r x
    cases r <;> exact other

/-- A write to a LOADING slot, and a read of a slot that is not EMPTY, within its length passes the access checks (R22). -/
theorem State.accessKinds_write {slot index count : Nat} (loading : (s.slot slot).state = .loading)
    (fits : index + count ≤ (s.slot slot).length) : (s.accessKinds slot index count true).replyCode = none := by
  simp [State.accessKinds, FaultKinds.replyCode, loading, fits]

theorem State.accessKinds_read {slot index count : Nat} (live : (s.slot slot).state ≠ .empty)
    (fits : index + count ≤ (s.slot slot).length) : (s.accessKinds slot index count false).replyCode = none := by
  simp [State.accessKinds, FaultKinds.replyCode, live, fits]

/-- One record that cannot be stored is enough to refuse them all (R26). -/
theorem storedRecords_none {records : List WireRecord} (h : ∃ r ∈ records, storedRecord r = none) :
    storedRecords records = none := by
  induction records with
  | nil => obtain ⟨r, hr, -⟩ := h; cases hr
  | cons a rest ih =>
    obtain ⟨r, hr, none⟩ := h
    rw [storedRecords]
    split
    · next x y first later =>
      rcases List.mem_cons.mp hr with rfl | hr
      · rw [none] at first; cases first
      · rw [ih ⟨r, hr, none⟩] at later; cases later
    · rfl

section writeRecords

variable {k index : Nat} {records : List WireRecord}

theorem State.writeRecords_range (h : 15 < k ∨ records.length = 0 ∨ 16 < records.length) :
    s.writeRecords k index records = s.refuse .p .range := if_pos h

variable (slot : k ≤ 15) (pos : 1 ≤ records.length) (le : records.length ≤ 16)
include slot pos le

theorem State.writeRecords_busy (closing : (s.slot k).state = .closing) :
    s.writeRecords k index records = s.refuse .p .busy := by
  have ranged : ¬ (15 < k ∨ records.length = 0 ∨ 16 < records.length) := by omega
  simp only [State.writeRecords, if_neg ranged, if_pos closing]

/-- A write that passes the access checks is decided by its records (R26, test 4). -/
theorem State.writeRecords_checked (loading : (s.slot k).state = .loading) (fits : index + records.length ≤ (s.slot k).length) :
    (storedRecords records = none → s.writeRecords k index records = s.refuse .p .range) ∧
      ∀ rs, storedRecords records = some rs →
        s.writeRecords k index records = s.askPortAccess k index records.length (some rs) := by
  have ranged : ¬ (15 < k ∨ records.length = 0 ∨ 16 < records.length) := by omega
  have open_ : ¬ (s.slot k).state = .closing := by rw [loading]; nofun
  refine ⟨fun none => ?_, fun rs stored => ?_⟩
  · simp only [State.writeRecords, if_neg ranged, if_neg open_, State.accessKinds_write loading fits, none]
  · simp only [State.writeRecords, if_neg ranged, if_neg open_, State.accessKinds_write loading fits, stored]

end writeRecords

theorem State.readRecords_range {k index count : Nat} (h : 15 < k ∨ count = 0 ∨ 16 < count) :
    s.readRecords k index count = s.refuse .p .range := if_pos h

theorem State.readRecords_checked {k index count : Nat} (slot : k ≤ 15) (pos : 1 ≤ count) (le : count ≤ 16)
    (live : (s.slot k).state ≠ .empty) (fits : index + count ≤ (s.slot k).length) :
    s.readRecords k index count = s.askPortAccess k index count none := by
  have ranged : ¬ (15 < k ∨ count = 0 ∨ 16 < count) := by omega
  simp only [State.readRecords, if_neg ranged, State.accessKinds_read live fits]

/-! ### What a record is handed over as (R1, R26) -/

theorem recordKindOf_unknown {code : Nat} (h : code = 0 ∨ 6 < code) : recordKindOf code = none := by
  rcases h with rfl | h
  · rfl
  · obtain ⟨m, rfl⟩ := Nat.exists_eq_add_of_lt h
    rw [show 6 + m + 1 = m + 7 by omega]
    rfl

theorem storedRecord_cases (r : WireRecord) :
    let within := -1270 ≤ r.dx ∧ r.dx ≤ 1270 ∧ -1270 ≤ r.dy ∧ r.dy ≤ 1270
    (r.kindCode = 1 → within → storedRecord r = some ⟨.stitch, decide (r.flags % 2 = 1), r.dx, r.dy⟩) ∧
    (r.kindCode = 2 → within → storedRecord r = some ⟨.jump, false, r.dx, r.dy⟩) ∧
    ((r.kindCode = 1 ∨ r.kindCode = 2) → ¬ within → storedRecord r = none) ∧
    (r.kindCode = 3 → storedRecord r = some ⟨.trim, false, 0, 0⟩) ∧
    (r.kindCode = 4 → storedRecord r = some ⟨.colour, false, 0, 0⟩) ∧
    (r.kindCode = 5 → storedRecord r = some ⟨.pause, false, 0, 0⟩) ∧
    (r.kindCode = 6 → storedRecord r = some ⟨.endRecord, false, 0, 0⟩) ∧
    ((r.kindCode = 0 ∨ 6 < r.kindCode) → storedRecord r = none) := by
  intro within
  refine ⟨fun e w => ?_, fun e w => ?_, fun e w => ?_, fun e => ?_, fun e => ?_, fun e => ?_, fun e => ?_, fun e => ?_⟩
  · have inside : decide within = true := by simpa using w
    simp only [storedRecord, e, recordKindOf]
    exact if_pos inside
  · have inside : decide within = true := by simpa using w
    simp only [storedRecord, e, recordKindOf]
    exact if_pos inside
  · have outside : ¬ decide within = true := by simpa using w
    rcases e with e | e
    · simp only [storedRecord, e, recordKindOf]
      exact if_neg outside
    · simp only [storedRecord, e, recordKindOf]
      exact if_neg outside
  · simp only [storedRecord, e, recordKindOf]
  · simp only [storedRecord, e, recordKindOf]
  · simp only [storedRecord, e, recordKindOf]
  · simp only [storedRecord, e, recordKindOf]
  · simp only [storedRecord, recordKindOf_unknown e]

/-! ### The end of a pause (R14) -/

/-- What an internal requester wants does not depend on the arbiter. -/
theorem State.wantedRead_withArbiter (s : State) (a : Arbiter) (r : Requester) :
    (s.withArbiter a).wantedRead r = s.wantedRead r := by
  cases r <;> rfl

theorem State.endPause_idles {r : Requester} (pausing : s.arbiter.request r = .pausing) (none : s.wantedRead r = none) :
    s.endPause r = s.withArbiter (s.arbiter.putRequest r .idle) := by
  have want := s.wantedRead_withArbiter (s.arbiter.putRequest r .idle) r
  simp only [State.endPause, pausing, want, none]

theorem State.endPause_asks {r : Requester} {x : StoreRead} (pausing : s.arbiter.request r = .pausing)
    (wants : s.wantedRead r = some x) :
    s.endPause r = (s.withArbiter (s.arbiter.putRequest r .idle)).askRead r x := by
  have want := s.wantedRead_withArbiter (s.arbiter.putRequest r .idle) r
  simp only [State.endPause, pausing, want, wants]

/-- The end of a pause changes the arbiter alone. -/
theorem State.endPause_eq (s : State) (r : Requester) : s.endPause r = { s with arbiter := (s.endPause r).arbiter } := by
  unfold State.endPause
  split
  · dsimp only
    split
    · next read _ =>
      obtain ⟨a, e⟩ := (s.withArbiter (s.arbiter.putRequest r .idle)).askRead_eq r read
      rw [e]
      rfl
    · rfl
  · rfl

theorem exec_requestPauseExpiry {r : Requester} (power : s.power ≠ .held) (pausing : s.arbiter.request r = .pausing) :
    ∃ t, exec (.requestPauseExpiry r) s = .next t ∧ t = { s with arbiter := t.arbiter } ∧
      (s.wantedRead r = none → t.arbiter = s.arbiter.putRequest r .idle) ∧
      (∀ x, s.wantedRead r = some x → s.arbiter.holder ≠ none → t.arbiter = s.arbiter.putRequest r (.waiting x)) ∧
      (∀ x, s.wantedRead r = some x → s.arbiter.holder = none → (∀ q y, s.arbiter.request q ≠ .waiting y) →
        t.arbiter = { s.arbiter.putRequest r (.served x true) with holder := some (.internal r) }) := by
  have idle : (s.withArbiter (s.arbiter.putRequest r .idle)).arbiter.request r = .idle := by
    rw [State.withArbiter_arbiter, Arbiter.request_putRequest, if_pos rfl]
  have holder : (s.withArbiter (s.arbiter.putRequest r .idle)).arbiter.holder = s.arbiter.holder :=
    Arbiter.holder_putRequest _ _ _
  refine ⟨_, rfl, ?_⟩
  rw [State.onEvent_acts s _ power]
  refine ⟨s.endPause_eq r, fun none => ?_, fun x wants held => ?_, fun x wants free alone => ?_⟩
  · rw [State.endPause_idles pausing none, State.withArbiter_arbiter]
  · rw [State.endPause_asks pausing wants, State.askRead_held x idle (by rw [holder]; exact held)]
    exact Arbiter.putRequest_putRequest _ _ _ _
  · rw [State.endPause_asks pausing wants, State.askRead_free x idle (by rw [holder]; exact free) fun q y => ?_]
    · rw [State.withArbiter_arbiter, State.withArbiter_arbiter, Arbiter.putRequest_putRequest]
    · rw [State.withArbiter_arbiter, Arbiter.request_putRequest]
      split
      · nofun
      · exact alone q y

/-- Settles O10: the tests of a record frame one by one, then its request, what a record is handed over as, and the end of
a pause. -/
theorem recordFrameBecomesOneRequest : Obligations.RecordFrameBecomesOneRequest := by
  refine ⟨fun s k index takes slot owed => ⟨fun records rs pos le loading fits stored => ?_, fun count pos le live fits => ?_⟩,
    fun s k index takes => ⟨fun records range => ?_, fun records slot pos le closing => ?_,
      fun records slot pos le loading fits bad => ?_, fun count range => ?_⟩,
    storedRecord_cases, fun s r power pausing => exec_requestPauseExpiry power pausing⟩
  · exact State.recordFrame_asks takes owed ((State.writeRecords_checked (s := s.framed) slot pos le loading fits).2 rs stored)
  · exact State.recordFrame_asks takes owed (State.readRecords_checked slot pos le live fits)
  · exact ⟨_, rfl, State.refused_onFrame takes (State.writeRecords_range range)⟩
  · exact ⟨_, rfl, State.refused_onFrame takes (State.writeRecords_busy slot pos le closing)⟩
  · exact ⟨_, rfl, State.refused_onFrame takes
      ((State.writeRecords_checked (s := s.framed) slot pos le loading fits).1 (storedRecords_none bad))⟩
  · exact ⟨_, rfl, State.refused_onFrame takes (State.readRecords_range range)⟩

end Sys2Proof.Machine
end

section
/-! PROOF SUPPORT. WALK's tests, the walk it starts (R94, R95), what a walk does before a step (R97), and O38. -/

namespace Sys2Proof.Machine

open Sys2Proof

variable {s : State}

/-! ### Before each step (R97) -/

theorem WalkRecord.next_back {w : WalkRecord} (len : Nat) (mode : w.mode = .back) :
    w.next len = if w.cursor = 0 then .ends .limit else .reads (w.cursor - 1) := by
  simp only [WalkRecord.next, mode]

theorem WalkRecord.next_forward {w : WalkRecord} (len : Nat) (mode : w.mode = .forward) :
    w.next len = if w.cursor < len then .reads w.cursor else .ends .limit := by
  simp only [WalkRecord.next, mode, ← Nat.not_lt, ite_not]

theorem WalkRecord.next_toIndex {w : WalkRecord} (len : Nat) (mode : w.mode = .toIndex) :
    w.next len = if w.cursor = w.goal then .ends .target
      else if w.direction = .back then .reads (w.cursor - 1) else .reads w.cursor := by
  simp only [WalkRecord.next, mode]

theorem WalkRecord.next_toBlock_back {w : WalkRecord} (len : Nat) (mode : w.mode = .toBlock) (dir : w.direction = .back) :
    w.next len = if w.cursor = 0 then .ends .target else .reads (w.cursor - 1) := by
  simp only [WalkRecord.next, mode, dir, if_true]

theorem WalkRecord.next_toBlock_forward {w : WalkRecord} (len : Nat) (mode : w.mode = .toBlock) (dir : w.direction ≠ .back) :
    w.next len = if w.cursor < len then .reads w.cursor else .ends .limit := by
  simp only [WalkRecord.next, mode, if_neg dir, ← Nat.not_lt, ite_not]

/-! ### The walk WALK starts (R95) -/

/-- The walk record of a WALK of a mode code, set up from the executed point. -/
def State.walkFor (s : State) (mode n : Nat) : WalkRecord :=
  let goal := if mode ≤ 1 then n else if mode = 2 then Nat.min n (s.designLength - 1)
    else Nat.min n s.armedRecord.colourCount
  { requester := .walk, mode := if mode = 0 then .back else if mode = 1 then .forward
      else if mode = 2 then .toIndex else .toBlock,
    goal := goal,
    direction := if mode = 0 then .back else if mode = 1 then .forward
      else if mode = 2 then (if goal < s.run.cursor then .back else if s.run.cursor < goal then .forward else .stay)
      else if goal ≤ s.run.colourBlock then .back else .forward,
    cursor := s.run.cursor, design := s.run.design, colourBlock := s.run.colourBlock, stitches := 0,
    deferredSkips := [], listEmptied := false }

/-- The state in which a walk of WALK takes its first step. -/
def State.walking (s : State) : State := s.withRun { s.run with state := .walking }

/-- The four mode codes, and what each sets up. -/
theorem State.beginWalk_eq {mode : Nat} {m : WalkMode} (n : Nat) (known : walkModeOf mode = some m)
    (still : s.run.state ≠ .running) : s.beginWalk m n = s.walking.advanceWalk (s.walkFor mode n) := by
  have start := s.setRunState_of_not_running .walking still
  match mode, known with
  | 0, rfl => simp only [State.beginWalk, State.startWalk, start]; rfl
  | 1, rfl => simp only [State.beginWalk, State.startWalk, start]; rfl
  | 2, rfl => simp only [State.beginWalk, State.walkToIndex, State.startWalk, start]; rfl
  | 3, rfl => simp only [State.beginWalk, State.startWalk, start]; rfl

/-- A walk that reads before its first step asks for its record and changes nothing else. -/
theorem State.advanceWalk_reads {w : WalkRecord} {i : Nat} (reads : w.next s.designLength = .reads i) :
    s.advanceWalk w = (s.withWalk (some w)).askRead .walk (s.walkRead i) := by
  simp only [State.advanceWalk, reads]

/-- A walk of WALK with no skip deferred that ends without a read hands over its point and posts WALK_DONE (R99). -/
theorem State.advanceWalk_ends {w : WalkRecord} {cause : WalkEnd} (ends : w.next s.designLength = .ends cause)
    (requester : w.requester = .walk) (noSkips : w.deferredSkips = []) (listed : w.listEmptied = false) :
    s.advanceWalk w = ((s.dropRead .walk).takeWalk w).post .walkDone 0 (walkParam w.cursor cause) := by
  have none : (headNumbers.filter fun h => w.deferredSkips.contains h) = [] := by
    rw [noSkips]
    exact List.filter_eq_nil_iff.mpr fun _ _ => Bool.false_ne_true
  simp only [State.advanceWalk, ends, State.endWalk, none, requester, State.finishEmptied, listed, List.foldl_nil,
    Bool.false_eq_true, false_and, if_false]

/-- WALK_DONE's parameter: the end cause over the index. -/
theorem walkParam_eq (index : Nat) (cause : WalkEnd) :
    walkParam index cause = BitVec.ofNat 32 (cause.code * 2 ^ 24 + index % 2 ^ 18) := by
  rw [walkParam, paramField, paramField, Nat.pow_zero, Nat.mul_one]
  cases cause <;> rfl

/-- Posting an event makes its entry the newest, where its class logs it. -/
theorem State.posted_post (s : State) (k : EventKind) (head : Nat) (param : BitVec 32) :
    (s.post k head param).posted [(k, head, param)] := by
  intro logs
  have same : (s.post k head param).classOf k.code = s.classOf k.code := by
    obtain ⟨q, e⟩ := s.post_eq k head param
    rw [e]
    rfl
  have log : (s.classOf k.code).log = true := by rw [← same]; exact logs _ (List.mem_singleton_self _)
  rw [State.post, State.postTarget_of_log s k head param none log, State.withEvents_events]
  obtain ⟨front, e⟩ := List.getLast?_eq_some_iff.mp (appendEvent_getLast? s.events _)
  rw [e, List.map_append]
  exact List.suffix_append _ _

/-! ### WALK (R94) -/

/-- The codes and counts that WALK refuses with RANGE. -/
theorem State.walkRun_range {mode n : Nat} (bad : 3 < mode ∨ mode ≤ 1 ∧ (n < 1 ∨ 9999 < n)) :
    s.walkRun mode n = s.refuse .p .range := by
  have counted : ∀ m, walkModeOf mode = some m → m.counts = true → mode ≤ 1 → s.walkRun mode n = s.refuse .p .range := by
    intro m known counts low
    have count : n = 0 ∨ 9999 < n := by omega
    simp only [State.walkRun, known, counts, count, and_self, if_true]
  match mode with
  | 0 => exact counted .back rfl rfl (by omega)
  | 1 => exact counted .forward rfl rfl (by omega)
  | 2 => omega
  | 3 => omega
  | _ + 4 => rfl

/-- Every other code names a mode, and its count is in range where the mode counts. -/
theorem walkModeOf_known {mode n : Nat} (good : ¬ (3 < mode ∨ mode ≤ 1 ∧ (n < 1 ∨ 9999 < n))) :
    ∃ m, walkModeOf mode = some m ∧ ¬ (m.counts = true ∧ (n = 0 ∨ 9999 < n)) := by
  match mode with
  | 0 => exact ⟨.back, rfl, by omega⟩
  | 1 => exact ⟨.forward, rfl, by omega⟩
  | 2 => exact ⟨.toIndex, rfl, nofun⟩
  | 3 => exact ⟨.toBlock, rfl, nofun⟩
  | _ + 4 => omega

/-- A WALK of a known mode and a count in range is tested against the operations and the run state, then begins. -/
theorem State.walkRun_known {mode n : Nat} {m : WalkMode} (known : walkModeOf mode = some m)
    (count : ¬ (m.counts = true ∧ (n = 0 ∨ 9999 < n))) : s.walkRun mode n =
      if s.operationInProgress then s.refuse .p .busy
      else if s.run.state ≠ .armed ∧ s.run.state ≠ .paused ∧ s.run.state ≠ .finished then s.refuse .p .state
      else (s.beginWalk m n).reply .p .accepted [] := by
  simp only [State.walkRun, known, if_neg count]

theorem State.operationInProgress_iff :
    s.operationInProgress = true ↔ s.scan.isSome = true ∨ s.run.state = .arming ∨ s.run.state = .walking := by
  simp only [State.operationInProgress, Bool.or_eq_true, decide_eq_true_eq, or_assoc]

/-- The loss of an owed reply changes no request and not who holds the path. -/
theorem State.loseReply_request (s : State) (port : Port) (r : Requester) :
    (s.loseReply port).arbiter.request r = s.arbiter.request r := by
  obtain ⟨a, e⟩ := s.loseReply_eq port
  rw [e]
  cases r <;> rfl

theorem State.loseReply_holder (s : State) (port : Port) : (s.loseReply port).arbiter.holder = s.arbiter.holder := by
  obtain ⟨a, e⟩ := s.loseReply_eq port
  rw [e]
  rfl

section started

variable {w : WalkRecord} {t : State} (started : t = (s.framed.walking.advanceWalk w).reply .p .accepted [])
include started

/-- A walk started on port P that reads first leaves its record and its request (R14, R95). -/
theorem State.walkStarted_reads {i : Nat} (reads : w.next s.designLength = .reads i) :
    s.answers t .p .accepted [] ∧
      t = { s with portP := t.portP, arbiter := t.arbiter, run := { s.run with state := .walking }, walk := some w } ∧
      (s.arbiter.walk = .idle → s.arbiter.holder ≠ none →
        t.arbiter = { (s.loseReply .p).arbiter with walk := .waiting (s.walkRead i) }) ∧
      (s.arbiter.walk = .idle → s.arbiter.holder = none → (∀ r y, s.arbiter.request r ≠ .waiting y) →
        t.arbiter = { (s.loseReply .p).arbiter with
          walk := .served (s.walkRead i) true, holder := some (.internal .walk) }) ∧
      (s.arbiter.walk ≠ .idle → t.arbiter = (s.loseReply .p).arbiter) := by
  let asking := s.framed.walking.withWalk (some w)
  have request : ∀ r, asking.arbiter.request r = s.arbiter.request r := s.loseReply_request .p
  have holder : asking.arbiter.holder = s.arbiter.holder := s.loseReply_holder .p
  obtain ⟨a, asks⟩ := asking.askRead_eq .walk (s.walkRead i)
  have after : t = (asking.askRead .walk (s.walkRead i)).reply .p .accepted [] :=
    started.trans (congrArg (State.reply · .p .accepted []) (State.advanceWalk_reads (s := s.framed.walking) reads))
  have arbiter : t.arbiter = (asking.askRead .walk (s.walkRead i)).arbiter := by rw [after]; rfl
  rw [arbiter, after]
  refine ⟨State.answers_reply _ _ (by rw [asks]; rfl), by rw [asks]; rfl, fun idle held => ?_, fun idle free alone => ?_,
    fun busy => ?_⟩
  · rw [State.askRead_held _ ((request .walk).trans idle) (by rw [holder]; exact held)]
    rfl
  · rw [State.askRead_free _ ((request .walk).trans idle) (holder.trans free) fun q y => by rw [request]; exact alone q y]
    rfl
  · rw [State.askRead_busy _ (by rw [request]; exact busy)]
    rfl

/-- A walk started on port P that ends without a read hands over the executed point (R99). -/
theorem State.walkStarted_ends {cause : WalkEnd} (ends : w.next s.designLength = .ends cause)
    (requester : w.requester = .walk) (noSkips : w.deferredSkips = []) (listed : w.listEmptied = false) :
    s.answers t .p .accepted [] ∧
      t = { s with portP := t.portP, arbiter := t.arbiter, run := t.run, seq := t.seq, walk := none, events := t.events } ∧
      t.run = { s.run with
        cursor := w.cursor, design := w.design, colourBlock := w.colourBlock,
        state := if w.cursor = s.designLength then .finished else .paused } ∧
      t.seq = { s.seq with
        cursor := w.cursor, design := w.design, frame := s.run.frame, approach := true, split := none,
        halt := none, haltFlag := false, buffer := none } ∧
      t.posted [(.walkDone, 0, walkParam w.cursor cause)] := by
  let taken := (s.framed.walking.dropRead .walk).takeWalk w
  have after : t = (taken.post .walkDone 0 (walkParam w.cursor cause)).reply .p .accepted [] :=
    started.trans (congrArg (State.reply · .p .accepted [])
      (State.advanceWalk_ends (s := s.framed.walking) ends requester noSkips listed))
  have posted : t.posted [(.walkDone, 0, walkParam w.cursor cause)] := by
    rw [after]
    exact taken.posted_post .walkDone 0 (walkParam w.cursor cause)
  obtain ⟨q, posts⟩ := taken.post_eq .walkDone 0 (walkParam w.cursor cause)
  obtain ⟨a, drops⟩ := s.framed.walking.dropRead_eq .walk
  have form : t = ((((s.framed.walking.withArbiter a).takeWalk w).withEvents q).reply .p .accepted []) := by
    rw [after, posts, ← drops]
  refine ⟨?_, ?_, ?_, ?_, posted⟩ <;> rw [form]
  · exact State.answers_reply _ _ rfl
  · rfl
  · rfl
  · rfl

end started

/-- Settles O38: the tests of WALK, the walk it starts or ends at once, and the read before each step by mode. -/
theorem walkStartsFromExecutedPoint : Obligations.WalkStartsFromExecutedPoint := by
  refine ⟨fun s mode n takes => ⟨_, rfl, ?_⟩, fun w len => ⟨w.next_back len, w.next_forward len, w.next_toIndex len,
    w.next_toBlock_back len, w.next_toBlock_forward len⟩⟩
  split
  · next bad => exact State.refused_onFrame takes (State.walkRun_range bad)
  · next good =>
    obtain ⟨m, known, count⟩ := walkModeOf_known good
    have tested := State.walkRun_known (s := s.framed) known count
    have inProgress : s.framed.operationInProgress = true ↔ _ := State.operationInProgress_iff
    split
    · next busy => exact State.refused_onFrame takes (tested.trans (if_pos (inProgress.mpr busy)))
    · next free =>
      rw [if_neg fun busy => free (inProgress.mp busy)] at tested
      split
      · next other => exact State.refused_onFrame takes (tested.trans (if_pos other))
      · next stands =>
        have still : s.run.state ≠ .running := fun e => stands (by rw [e]; decide)
        have begun := tested.trans (if_neg stands)
        rw [State.beginWalk_eq (s := s.framed) n known still] at begun
        have started := (State.onFrame_taken s .p (fun t => t.walkRun mode n) takes).trans begun
        refine ⟨?_, fun i reads => (State.walkStarted_reads started reads).2, fun cause ends => ?_⟩
        · cases next : (s.walkFor mode n).next s.designLength with
          | reads i => exact (State.walkStarted_reads started next).1
          | ends cause => exact (State.walkStarted_ends started next rfl rfl rfl).1
        · obtain ⟨-, form, run, seq, posted⟩ := State.walkStarted_ends started ends rfl rfl rfl
          rw [walkParam_eq] at posted
          refine ⟨form, run, seq, ?_⟩
          cases cause with
          | target => exact posted
          | limit => exact posted
          | stop => exact posted
          | memory => exact posted

end Sys2Proof.Machine
end

section
/-! PROOF SUPPORT. Frames that are taken and answered (R164), the bytes of a reply (R167), and O8: the commands that read. -/

namespace Sys2Proof.Machine

open Sys2Proof

variable {s : State}

/-! ### Frames that are taken (R164, R168) -/

/-- A frame that is taken and whose body places a reply and does nothing else changes its port alone. -/
theorem State.answered_onFrame {port : Port} {body : State → State} {code : ReplyCode} {payload : List Byte}
    (takes : s.takesFrame port = true)
    (answered : body ((s.loseReply port).closeFrame port) = ((s.loseReply port).closeFrame port).reply port code payload) :
    s.onlyPort (s.onFrame port body) port ∧ s.answers (s.onFrame port body) port code payload := by
  rw [State.onFrame_taken s port body takes, answered]
  refine ⟨?_, State.answers_reply code payload ?_⟩
  · cases port <;> rfl
  · cases port <;> rfl

/-! ### The bytes of a reply (R167) -/

theorem beBytes_one (n : Nat) : beBytes 1 n = [BitVec.ofNat 8 n] := by
  simp [beBytes]

/-- A colour table entry in a reply of READ_COLOURS. -/
theorem colourBytes_eq (e : Option ColourEntry) : colourBytes e =
    match e with
    | some e => [0, BitVec.ofNat 8 e.needle, match e.action with | .auto => 0 | .stop => 1]
    | none => [1, 0, 0] := by
  cases e with
  | none => rfl
  | some e =>
    obtain ⟨needle, action⟩ := e
    rw [colourBytes, beBytes_one, beBytes_one]
    cases action <;> rfl

/-- One position in a reply of READ_REPAIRS. -/
theorem positionBytes_eq (e : Option RepairEntry) : positionBytes e =
    match e with
    | some e => 0 :: (beBytes 1 e.head ++
        (match e.kind with | .fault c => 0 :: optBytes 1 (some c.code) | .skip => 1 :: optBytes 1 none) ++
        beBytes 3 e.fromIndex ++ optBytes 1 e.toBlock ++ optBytes 3 e.toIndex ++ optBytes 1 e.deferred ++
        flagByte e.sewing)
    | none => 1 :: List.replicate 16 0 := by
  cases e with
  | none => rfl
  | some e =>
    obtain ⟨head, kind, fromIndex, toBlock, toIndex, deferred, sewing⟩ := e
    cases kind <;> rfl

/-- One head in a reply of READ_HEADS. -/
theorem State.headBytes_eq (s : State) (h : Nat) : s.headBytes h =
    beBytes 1 (s.head h).state.code ++
      optBytes 1 ((s.head h).cause.map fun c => match c with | .thread f => f.code | .loss l => l.code) ++
      beBytes 1 (s.head h).needle ++ [if (s.head h).presserUp = true then 1 else 0] ++ beBytes 1 (s.head h).noMotion ++
      beBytes 1 (s.head h).tension ++ beBytes 3 (s.head h).lastMotion ++ flagByte (s.head h).bobbinWarned ++
      optBytes 3 (s.head h).joinIndex ++
      optBytes 1 ((s.ringRecord h).path.map fun e => match e with | .a => 0 | .b => 1) ++
      flagByte (s.ringRecord h).switched ++ beBytes 1 (s.ringRecord h).misses ++ beBytes 2 (s.inhibitRow h).toNat := by
  have presser : beBytes 1 (presserData (s.head h).presserUp) = [if (s.head h).presserUp = true then 1 else 0] := by
    rw [beBytes_one]
    cases (s.head h).presserUp <;> rfl
  have cause : (s.head h).cause.map HeadCause.code =
      (s.head h).cause.map fun c => match c with | .thread f => f.code | .loss l => l.code :=
    Option.map_congr fun c _ => by cases c <;> rfl
  have path : (s.ringRecord h).path.map pathCode = (s.ringRecord h).path.map fun e => match e with | .a => 0 | .b => 1 :=
    Option.map_congr fun e _ => by cases e <;> rfl
  simp only [State.headBytes, presser, cause, path]

/-! ### The commands that read -/

/-- READ_STATUS on either port. -/
theorem State.readStatus_answers {port : Port} (takes : s.takesFrame port = true) :
    ∃ t, exec (.readStatus port) s = .next t ∧ s.onlyPort t port ∧
      s.answers t port .ok [BitVec.ofNat 8 s.events.length, BitVec.ofNat 8 s.queue.issued.length,
        BitVec.ofNat 8 s.queue.prepared.length, BitVec.ofNat 8 s.ring.state.code] := by
  refine ⟨_, rfl, State.answered_onFrame takes ?_⟩
  simp only [beBytes_one]
  cases port <;> rfl

/-- READ_RUN's payload, field after field. -/
theorem State.readRunBytes_eq (s : State) : s.readRunBytes =
    runBytes s.run ++ beBytes 3 s.seq.cursor ++ flagByte s.seq.haltFlag ++ beBytes 1 s.queue.issued.length ++
      beBytes 1 s.queue.prepared.length ++ optBytes 1 (s.change.map (·.target)) ++
      optBytes 1 (s.change.map (·.action.code)) ++ optBytes 1 (s.change.map (·.confirm.length)) := by
  simp only [State.readRunBytes, changeBytes, List.append_assoc]

/-- READ_COLOURS by its tests (R31). -/
theorem State.readColours_range {k first count : Nat} (h : 15 < k ∨ count = 0 ∨ 16 < count ∨ 128 < first + count) :
    s.readColours k first count = s.refuse .p .range := if_pos (by omega)

theorem State.readColours_ranged {k first count : Nat} (slot : k ≤ 15) (pos : 1 ≤ count) (le : count ≤ 16)
    (fits : first + count ≤ 128) : s.readColours k first count =
      if (s.slot k).state = .empty then s.refuse .p .absent
      else s.reply .p .ok
        (beBytes 1 count ++ (List.range count).flatMap fun j => colourBytes ((s.slot k).colour (first + j))) :=
  if_neg (by omega)

/-- READ_REPAIRS within its range (R154). -/
theorem State.readRepairs_ranged {first count : Nat} (low : first ≤ 47) (pos : 1 ≤ count) (le : count ≤ 8) :
    s.readRepairs first count = s.reply .p .ok (beBytes 1 s.repairs.length ++ beBytes 1 count ++
      (List.range count).flatMap fun j => positionBytes s.repairs[first + j]?) := if_neg (by omega)

/-- READ_HEADS by its tests (R144). -/
theorem State.readHeads_range {first count : Nat} (h : first = 0 ∨ count = 0 ∨ 8 < count ∨ 25 < first + count) :
    s.readHeads first count = s.refuse .p .range := if_pos (by omega)

theorem State.readHeads_ranged {first count : Nat} (low : 1 ≤ first) (pos : 1 ≤ count) (le : count ≤ 8)
    (fits : first + count ≤ 25) : s.readHeads first count =
      s.reply .p .ok (beBytes 1 s.ring.state.code ++ beBytes 1 count ++
        (List.range count).flatMap fun j => s.headBytes (first + j)) := if_neg (by omega)

/-- Settles O8: each command that reads answers from fields that the end of its frame leaves as they were. -/
theorem readCommandsChangeNothing : Obligations.ReadCommandsChangeNothing := by
  refine fun s port => ⟨fun takes => ⟨?_, ?_, ?_⟩, fun takes => ⟨?_, ?_, fun k slot => ?_,
    fun k first count slot pos le fits live => ?_, fun first count low pos le => ?_, fun first count low pos le fits => ?_,
    fun k high => ?_, fun k first count bad => ?_, fun k first count slot pos le fits empty => ?_,
    fun first count bad => ?_, fun first count bad => ?_⟩⟩
  · exact ⟨_, rfl, State.answered_onFrame takes rfl⟩
  · exact ⟨_, rfl, State.answered_onFrame takes rfl⟩
  · obtain ⟨t, run, only, answers⟩ := State.readStatus_answers takes
    refine ⟨t, run, only, ?_⟩
    cases ring : s.ring.state <;> (rw [ring] at answers; exact answers)
  · exact ⟨_, rfl, State.answered_onFrame takes rfl⟩
  · exact ⟨_, rfl, State.answered_onFrame takes (congrArg (State.reply s.framed .p .ok) s.framed.readRunBytes_eq)⟩
  · exact ⟨_, rfl, State.answered_onFrame takes (if_neg (by omega))⟩
  · have bytes := (State.readColours_ranged (s := s.framed) slot pos le fits).trans (if_neg live)
    rw [beBytes_one] at bytes
    simp only [colourBytes_eq] at bytes
    exact ⟨_, rfl, State.answered_onFrame takes bytes⟩
  · have bytes := State.readRepairs_ranged (s := s.framed) low pos le
    rw [beBytes_one, beBytes_one] at bytes
    simp only [positionBytes_eq] at bytes
    exact ⟨_, rfl, State.answered_onFrame takes bytes⟩
  · have bytes := State.readHeads_ranged (s := s.framed) low pos le fits
    rw [beBytes_one, beBytes_one] at bytes
    simp only [State.headBytes_eq] at bytes
    exact ⟨_, rfl, State.answered_onFrame takes bytes⟩
  · exact ⟨_, rfl, State.refused_onFrame takes (if_pos high)⟩
  · exact ⟨_, rfl, State.refused_onFrame takes (State.readColours_range bad)⟩
  · exact ⟨_, rfl, State.refused_onFrame takes ((State.readColours_ranged slot pos le fits).trans (if_pos empty))⟩
  · exact ⟨_, rfl, State.refused_onFrame takes (if_pos bad)⟩
  · exact ⟨_, rfl, State.refused_onFrame takes (State.readHeads_range bad)⟩

end Sys2Proof.Machine
end

section
/-! PROOF SUPPORT. The tests of a frame in their order, and O15, O16 and O19: the commands on one slot. -/

namespace Sys2Proof.Machine

open Sys2Proof

variable {s : State}

/-! ### The tests of a frame (R168) -/

/-- A test of a frame on port P: where it holds the frame is refused with its code, else the body goes on. -/
theorem State.refused_or {q goal : Prop} [Decidable q] {body : State → State} {code : ReplyCode} {u : State}
    (takes : s.takesFrame .p = true) (tested : body s.framed = if q then s.framed.refuse .p code else u)
    (passed : ¬ q → body s.framed = u → goal) :
    if q then s.onlyPort (s.onFrame .p body) .p ∧ s.answers (s.onFrame .p body) .p code [] else goal := by
  split
  · next bad => exact State.refused_onFrame takes (tested.trans (if_pos bad))
  · next good => exact passed good (tested.trans (if_neg good))

/-- A frame on port P that is taken and whose body ends in a reply leaves what the body leaves, and is answered. -/
theorem State.replied_onFrame {u : State} {body : State → State} {code : ReplyCode} {payload : List Byte}
    (takes : s.takesFrame .p = true) (ran : body s.framed = u.reply .p code payload) (port : u.portP = s.framed.portP) :
    s.onFrame .p body = u.reply .p code payload ∧ s.answers (u.reply .p code payload) .p code payload :=
  ⟨(State.onFrame_taken s .p body takes).trans ran, State.answers_reply code payload port⟩

/-- The slots once a slot record has been rewritten and the reply placed. -/
theorem State.slot_putSlot_reply (u : State) (k : Nat) (r : SlotRecord) (code : ReplyCode) (payload : List Byte) (j : Nat) :
    ((u.putSlot k r).reply .p code payload).slot j = if j = k then r else u.slot j := u.slot_putSlot k j r

/-! ### SET_COLOURS (R29, R30) -/

/-- The edit lock of the armed slot by the run state (R30). -/
theorem State.editLock_eq (s : State) (first : Nat) : s.editLock first =
    if (s.run.state = .running ∨ s.run.state = .stopping ∨ s.run.state = .changing) ∧ first ≤ s.run.colourBlock then
      some .locked
    else if s.run.state = .walking then some .busy else none := by
  unfold State.editLock
  cases s.run.state <;> simp

/-- SET_COLOURS as a chain of tests, the edit lock of the armed slot last. -/
theorem State.setColours_eq (s : State) (k first : Nat) (entries : List ColourEntry) : s.setColours k first entries =
    if 15 < k ∨ entries.length < 1 ∨ 16 < entries.length then s.refuse .p .range
    else if (s.slot k).state = .empty then s.refuse .p .absent
    else if (s.slot k).state = .closing then s.refuse .p .busy
    else if (s.slot k).state = .damaged then s.refuse .p .state
    else if 128 < first + entries.length then s.refuse .p .range
    else if ∃ e ∈ entries, e.needle = 0 ∨ s.constants.needles < e.needle then s.refuse .p .range
    else if (s.slot k).armed = true ∧
        (s.run.state = .running ∨ s.run.state = .stopping ∨ s.run.state = .changing) ∧ first ≤ s.run.colourBlock then
      s.refuse .p .locked
    else if (s.slot k).armed = true ∧ s.run.state = .walking then s.refuse .p .busy
    else (s.putSlot k ((s.slot k).putColours first entries)).reply .p .ok [] := by
  have last : 127 < first + entries.length - 1 ↔ 128 < first + entries.length := by omega
  unfold State.setColours
  simp only [Nat.lt_one_iff, last, List.any_eq_true, Bool.or_eq_true, decide_eq_true_eq]
  cases armed : (s.slot k).armed with
  | false => simp only [Bool.false_eq_true, false_and, if_false]
  | true =>
    simp only [if_true, true_and, State.editLock_eq]
    split_ifs <;> rfl

/-- The colour table after consecutive entries have been defined from `b` on. -/
theorem SlotRecord.colour_putColours (r : SlotRecord) (b : Nat) (entries : List ColourEntry) (c : Nat) :
    (r.putColours b entries).colour c = if b ≤ c ∧ c < b + entries.length then entries[c - b]? else r.colour c := by
  induction entries generalizing r b with
  | nil => simp only [SlotRecord.putColours, List.length_nil, if_neg (show ¬ (b ≤ c ∧ c < b + 0) by omega)]
  | cons e rest ih =>
    rw [SlotRecord.putColours, ih, SlotRecord.colour_putColour, List.length_cons]
    rcases lt_trichotomy c b with lt | rfl | gt
    · rw [if_neg (by omega), if_neg (by omega), if_neg (by omega)]
    · rw [if_neg (by omega), if_pos rfl, if_pos (by omega), Nat.sub_self, List.getElem?_cons_zero]
    · have later : c - b = c - (b + 1) + 1 := by omega
      rw [if_neg (c := c = b) (by omega), later, List.getElem?_cons_succ]
      exact if_congr (by omega) rfl rfl

/-- Defining entries changes the colour table of the slot alone. -/
theorem SlotRecord.putColours_eq (r : SlotRecord) (b : Nat) (entries : List ColourEntry) :
    r.putColours b entries = { r with colours := (r.putColours b entries).colours } := by
  induction entries generalizing r b with
  | nil => rfl
  | cons e rest ih => rw [SlotRecord.putColours, ih]; rfl

/-- Settles O15: the tests one by one, then the entries defined in the slot's colour table. -/
theorem setColoursDefinesEntries : Obligations.SetColoursDefinesEntries := by
  refine fun s k first entries takes => ⟨_, rfl, ?_⟩
  refine State.refused_or takes (State.setColours_eq s.framed k first entries) fun _ tested => ?_
  refine State.refused_or takes tested fun _ tested => State.refused_or takes tested fun _ tested => ?_
  refine State.refused_or takes tested fun _ tested => State.refused_or takes tested fun _ tested => ?_
  refine State.refused_or takes tested fun _ tested => State.refused_or takes tested fun _ tested => ?_
  refine State.refused_or takes tested fun _ taken => ?_
  obtain ⟨ran, answers⟩ := State.replied_onFrame (body := fun t => t.setColours k first entries) takes taken rfl
  rw [ran]
  have slot := s.framed.slot_putSlot_reply k ((s.framed.slot k).putColours first entries) .ok []
  refine ⟨answers, rfl, fun j other => (slot j).trans (if_neg other), ?_, fun j below => ?_, fun b outside => ?_⟩
  · rw [(slot k).trans (if_pos rfl)]
    exact SlotRecord.putColours_eq _ _ _
  · rw [(slot k).trans (if_pos rfl), SlotRecord.colour_putColours, if_pos (by omega), Nat.add_sub_cancel_left]
  · rw [(slot k).trans (if_pos rfl), SlotRecord.colour_putColours, if_neg (by omega)]
    rfl

/-! ### CLOSE_DESIGN (R32) -/

/-- A request of an internal requester made while the path and the requests stand as the end of a frame left them. -/
theorem State.askRead_framed {u : State} (r : Requester) (x : StoreRead) (same : u.arbiter = (s.loseReply .p).arbiter) :
    (s.arbiter.request r = .idle → s.arbiter.holder ≠ none →
      (u.askRead r x).arbiter = (s.loseReply .p).arbiter.putRequest r (.waiting x)) ∧
    (s.arbiter.request r = .idle → s.arbiter.holder = none → (∀ q y, s.arbiter.request q ≠ .waiting y) →
      (u.askRead r x).arbiter =
        { (s.loseReply .p).arbiter.putRequest r (.served x true) with holder := some (.internal r) }) ∧
    (s.arbiter.request r ≠ .idle → (u.askRead r x).arbiter = (s.loseReply .p).arbiter) := by
  have request : ∀ q, u.arbiter.request q = s.arbiter.request q := fun q => by rw [same, State.loseReply_request]
  have holder : u.arbiter.holder = s.arbiter.holder := by rw [same, State.loseReply_holder]
  refine ⟨fun idle held => ?_, fun idle free alone => ?_, fun busy => ?_⟩
  · rw [State.askRead_held x ((request r).trans idle) (by rw [holder]; exact held), State.withArbiter_arbiter, same]
  · rw [State.askRead_free x ((request r).trans idle) (holder.trans free) fun q y => by rw [request]; exact alone q y,
      State.withArbiter_arbiter, same]
  · rw [State.askRead_busy x (by rw [request]; exact busy), same]

/-- The scan that CLOSE_DESIGN starts. -/
def scanFrom (k : Nat) : CloseScan :=
  { slot := k, index := 0, position := ⟨0, 0⟩, colours := 0, stitches := 0, extents := .zero }

/-- A slot made CLOSING with its scan begun. -/
def State.scanning (s : State) (k : Nat) : State :=
  (s.putSlot k { s.slot k with state := .closing }).withScan (some (scanFrom k))

theorem State.slot_scanning (s : State) (k j : Nat) :
    (s.scanning k).slot j = if j = k then { s.slot k with state := .closing } else s.slot j :=
  s.slot_putSlot k j { s.slot k with state := .closing }

theorem State.scanRead_scanning (s : State) (k : Nat) :
    (s.scanning k).scanRead (scanFrom k) = ⟨chunkOf (s.slot k).blockMap 0, 0⟩ := by
  rw [State.scanRead, show (scanFrom k).slot = k from rfl, State.slot_scanning, if_pos rfl]
  rfl

/-- CLOSE_DESIGN taken: the slot CLOSING, its scan begun, and the chunk of index 0 asked for. -/
theorem State.closeDesign_eq (s : State) (k : Nat) : s.closeDesign k =
    if 15 < k then s.refuse .p .range
    else if (s.slot k).state = .closing then s.refuse .p .busy
    else if (s.slot k).state ≠ .loading then s.refuse .p .state
    else if s.scan.isSome = true then s.refuse .p .busy
    else ((s.scanning k).askRead .closeScan ⟨chunkOf (s.slot k).blockMap 0, 0⟩).reply .p .accepted [] := by
  rw [← State.scanRead_scanning]
  rfl

/-- Settles O16: the tests one by one, then the scan begun and its first request at the arbiter. -/
theorem closeDesignStartsScan : Obligations.CloseDesignStartsScan := by
  refine fun s k takes => ⟨_, rfl, ?_⟩
  refine State.refused_or takes (State.closeDesign_eq s.framed k) fun _ tested => ?_
  refine State.refused_or takes tested fun _ tested => State.refused_or takes tested fun _ tested => ?_
  refine State.refused_or takes tested fun _ taken => ?_
  have arbiter := State.askRead_framed (s := s) (u := s.framed.scanning k) .closeScan
    ⟨chunkOf (s.slot k).blockMap 0, 0⟩ rfl
  obtain ⟨a, asks⟩ := (s.framed.scanning k).askRead_eq .closeScan ⟨chunkOf (s.slot k).blockMap 0, 0⟩
  rw [asks] at arbiter
  obtain ⟨ran, answers⟩ := State.replied_onFrame (body := fun t => t.closeDesign k) takes
    (taken.trans (congrArg (State.reply · .p .accepted []) asks)) rfl
  rw [ran]
  have slot := s.framed.slot_scanning k
  exact ⟨answers, rfl, (slot k).trans (if_pos rfl), fun j other => (slot j).trans (if_neg other), rfl, arbiter⟩

/-! ### DELETE and KEEP (R37, R38) -/

/-- Settles O19: the tests of each command one by one, then the slot emptied or its flag written. -/
theorem deleteReturnsBlocks : Obligations.DeleteReturnsBlocks := by
  refine ⟨fun s k takes => ⟨_, rfl, ?_⟩, fun s k on takes => ⟨_, rfl, ?_⟩⟩
  · refine State.refused_or takes rfl fun _ tested => State.refused_or takes tested fun _ tested => ?_
    refine State.refused_or takes tested fun _ tested => State.refused_or takes tested fun _ tested => ?_
    refine State.refused_or takes tested fun _ taken => ?_
    obtain ⟨p, released, returned⟩ := s.framed.release_eq (s.slot k).blockMap
    have emptied := taken.trans
      (congrArg (fun u : State => (u.putSlot k SlotRecord.reset).reply .p .ok []) released)
    obtain ⟨ran, answers⟩ := State.replied_onFrame (body := fun t => t.deleteSlot k) takes emptied rfl
    rw [ran]
    have slot := (s.framed.withPool p).slot_putSlot_reply k SlotRecord.reset .ok []
    refine ⟨answers, rfl, returned.trans List.perm_append_comm, fun j other => (slot j).trans (if_neg other), ?_⟩
    rw [(slot k).trans (if_pos rfl)]
    exact ⟨rfl, rfl, rfl, rfl, rfl, fun _ => rfl, rfl, rfl, rfl⟩
  · refine State.refused_or takes rfl fun _ tested => State.refused_or takes tested fun _ taken => ?_
    obtain ⟨ran, answers⟩ := State.replied_onFrame (body := fun t => t.keepSlot k on) takes taken rfl
    rw [ran]
    have slot := s.framed.slot_putSlot_reply k { s.slot k with keep := on } .ok []
    exact ⟨answers, rfl, (slot k).trans (if_pos rfl), fun j other => (slot j).trans (if_neg other)⟩

end Sys2Proof.Machine
end

section
/-! PROOF SUPPORT. O9: OPEN_DESIGN and the blocks it takes from the pool (R2, R9, R25). -/

namespace Sys2Proof.Machine

open Sys2Proof

variable {s : State}

/-! ### The blocks taken (R9) -/

/-- A table of which only the numbers that meet a test are kept. -/
theorem Table.get_filter {α : Type} (dflt : Nat → α) (p : Nat → Bool) (t : Table α) (k : Nat) :
    Table.get dflt (t.filter fun e => p e.1) k = if p k = true then Table.get dflt t k else dflt k := by
  induction t with
  | nil => simp [Table.get]
  | cons e rest ih =>
    obtain ⟨a, v⟩ := e
    by_cases here : a = k
    · subst here
      by_cases kept : p a = true
      · simp [Table.get, kept]
      · simpa [Table.get, kept] using ih
    · by_cases kept : p a = true
      · simpa [Table.get, kept, here] using ih
      · simpa [Table.get, kept, here] using ih

/-- The store block of a chunk that a record index is relocated to (R20). -/
theorem chunkOf_block (map : List Nat) (i : Nat) : chunkOf map i / 128 = map.getD (i / 512) 0 := by
  unfold chunkOf
  simp only [Config.blockPositions, Config.blockChunks]
  omega

/-- The chunk of record L−1 lies in the blocks of a design whose map has a block for it. -/
theorem chunkOf_last_mem {blocks : List Nat} {len : Nat} (pos : 1 ≤ len) (enough : (len + 511) / 512 ≤ blocks.length) :
    chunkOf blocks (len - 1) / 128 ∈ blocks := by
  have below : (len - 1) / 512 < blocks.length := by omega
  rw [chunkOf_block, List.getD_eq_getElem _ _ below]
  exact List.getElem_mem below

theorem blocksFor_eq (len : Nat) : blocksFor len = (len + 511) / 512 := by
  unfold blocksFor Config.blockPositions
  omega

/-- The chunks after blocks have been taken: those of the blocks BLANK, the last record's chunk with its padding. -/
theorem State.chunk_allocate (s : State) (len n : Nat) : (s.allocate len).1.chunk n =
    if n = chunkOf (s.pool.take ((len + 511) / 512)) (len - 1) then paddedChunk len
    else if n / 128 ∈ s.pool.take ((len + 511) / 512) then Chunk.reset else s.chunk n := by
  let blocks := s.pool.take ((len + 511) / 512)
  let cleared := s.withStore (s.store.filter fun e => !(blocks.contains (e.1 / 128)))
  simp only [State.allocate, blocksFor_eq]
  change (cleared.putChunk (chunkOf blocks (len - 1)) (paddedChunk len)).chunk n = _
  rw [State.chunk_putChunk]
  refine if_congr Iff.rfl rfl ?_
  refine (Table.get_filter (fun _ => Chunk.reset) (fun b => !(blocks.contains (b / 128))) s.store n).trans ?_
  by_cases taken : n / 128 ∈ blocks
  · rw [if_pos taken, if_neg (by simpa using taken)]
  · rw [if_neg taken, if_pos (by simpa using taken)]
    rfl

/-- The chunk of record L−1: BLANK, its positions above that record's as padding (R2). -/
theorem paddedChunk_eq (len : Nat) : (paddedChunk len).changed = [] ∧ (paddedChunk len).state = .blank ∧
    ∀ p, p < 4 → (paddedChunk len).cell p = if (len - 1) % 4 < p then .padding else .blank := by
  have unwritten : ∀ p, (if (len - 1) % 4 < p then Cell.padding else .blank).byRequest = false := by
    intro p
    split <;> rfl
  refine ⟨rfl, ?_, fun p below => ?_⟩
  · simp only [Chunk.state, paddedChunk, unwritten, Bool.or_self, Bool.not_false, if_true]
  · match p with
    | 0 => rfl
    | 1 => rfl
    | 2 => rfl
    | 3 => rfl

/-- The chunks of the blocks taken are BLANK, with the padding of the last record's chunk (R2, R9). -/
theorem State.chunk_allocate_taken (s : State) {len n : Nat} (inside : n / 128 ∈ s.pool.take ((len + 511) / 512)) :
    ((s.allocate len).1.chunk n).changed = [] ∧ ((s.allocate len).1.chunk n).state = .blank ∧
      ∀ p, p < 4 → ((s.allocate len).1.chunk n).cell p =
        if n = chunkOf (s.pool.take ((len + 511) / 512)) (len - 1) ∧ (len - 1) % 4 < p then .padding else .blank := by
  rw [State.chunk_allocate, if_pos inside]
  split
  · next last => simpa only [last, true_and] using paddedChunk_eq len
  · next other =>
    refine ⟨rfl, rfl, fun p below => ?_⟩
    rw [if_neg fun both => other both.1]
    match p with
    | 0 => rfl
    | 1 => rfl
    | 2 => rfl
    | 3 => rfl

/-! ### OPEN_DESIGN (R25) -/

theorem State.openDesign_eq (s : State) (k len : Nat) : s.openDesign k len =
    if 15 < k then s.refuse .p .range
    else if (s.slot k).state ≠ .empty then s.refuse .p .state
    else if len < 1 ∨ 131072 < len then s.refuse .p .range
    else if s.pool.length < (len + 511) / 512 then s.refuse .p .noSpace
    else ((s.allocate len).1.putSlot k (openedSlot len (s.pool.take ((len + 511) / 512)))).reply .p .ok [] := by
  simp only [State.openDesign, State.allocate, blocksFor_eq, Nat.lt_one_iff, Config.maxLength]

/-- Settles O9: the tests one by one, then the lowest free blocks taken and the slot opened with them. -/
theorem openDesignTakesLowestFreeBlocks : Obligations.OpenDesignTakesLowestFreeBlocks := by
  refine fun s k len takes => ⟨_, rfl, ?_⟩
  refine State.refused_or takes (State.openDesign_eq s.framed k len) fun _ tested => ?_
  refine State.refused_or takes tested fun _ tested => State.refused_or takes tested fun ranged tested => ?_
  refine State.refused_or takes tested fun room taken => ?_
  obtain ⟨ran, answers⟩ := State.replied_onFrame (body := fun t => t.openDesign k len) takes taken rfl
  rw [ran]
  intro blocks
  have enough : (len + 511) / 512 ≤ blocks.length := by rw [List.length_take]; omega
  have last : chunkOf blocks (len - 1) / 128 ∈ blocks := chunkOf_last_mem (by omega) enough
  have slot := (s.framed.allocate len).1.slot_putSlot_reply k (openedSlot len blocks) .ok []
  have chunk := s.framed.chunk_allocate len
  refine ⟨answers, fun rising => ?_, rfl, (slot k).trans (if_pos rfl), fun j other => (slot j).trans (if_neg other), rfl,
    fun n outside => ?_, fun n inside => ?_⟩
  · rw [← List.take_append_drop ((len + 511) / 512) s.pool, List.pairwise_append] at rising
    obtain ⟨first, -, apart⟩ := rising
    exact ⟨first, apart⟩
  · have other : n ≠ chunkOf blocks (len - 1) := fun e => outside (e ▸ last)
    exact ((chunk n).trans (if_neg other)).trans (if_neg outside)
  · exact s.framed.chunk_allocate_taken inside

end Sys2Proof.Machine
end

section
/-! PROOF SUPPORT. O11: access faults, how they are refused and recorded (R22, R23), and CLEAR_FAULT_RECORD (R24). -/

namespace Sys2Proof.Machine

open Sys2Proof

variable {s : State}

/-- The access fault record after a fault: a frozen one takes the kinds, another the whole fault (R23). -/
theorem State.faultRecord_recordFault (s : State) (source : FaultSource) (command : Option FaultCommand)
    (slot index : Nat) (kinds : FaultKinds) : (s.recordFault source command slot index kinds).faultRecord =
      if s.faultRecord.frozen then { s.faultRecord with kinds := s.faultRecord.kinds.union kinds }
      else ⟨true, some source, command, some slot, some index, kinds⟩ := by
  unfold State.recordFault
  split <;> rfl

/-- Kinds of which one is noted are refused with the one of highest precedence (R22). -/
theorem FaultKinds.replyCode_some {k : FaultKinds} (noted : (k.absent || k.length || k.readOnly) = true) :
    k.replyCode = some (if k.absent then .absent else if k.length then .length else .readOnly) := by
  unfold FaultKinds.replyCode
  split_ifs <;> simp_all

/-- The access checks never note UNCORRECTABLE, so a set they are added to keeps its own. -/
theorem FaultKinds.union_accessKinds (f : FaultKinds) (s : State) (k index count : Nat) (write : Bool) :
    f.union (s.accessKinds k index count write) =
      { absent := f.absent || decide ((s.slot k).state = .empty)
        length := f.length || decide ((s.slot k).length < index + count)
        readOnly := f.readOnly || (write && decide ((s.slot k).state ≠ .loading))
        uncorrectable := f.uncorrectable } := by
  simp only [FaultKinds.union, State.accessKinds, Bool.or_false]

theorem State.readRecords_faulted {k index count : Nat} {code : ReplyCode} (slot : k ≤ 15) (pos : 1 ≤ count)
    (le : count ≤ 16) (noted : (s.accessKinds k index count false).replyCode = some code) :
    s.readRecords k index count =
      (s.recordFault .portP (some .readRecords) k index (s.accessKinds k index count false)).refuse .p code := by
  have ranged : ¬ (15 < k ∨ count = 0 ∨ 16 < count) := by omega
  simp only [State.readRecords, if_neg ranged, noted]

theorem State.writeRecords_faulted {k index : Nat} {records : List WireRecord} {code : ReplyCode} (slot : k ≤ 15)
    (pos : 1 ≤ records.length) (le : records.length ≤ 16) (open_ : (s.slot k).state ≠ .closing)
    (noted : (s.accessKinds k index records.length true).replyCode = some code) :
    s.writeRecords k index records =
      (s.recordFault .portP (some .writeRecords) k index (s.accessKinds k index records.length true)).refuse .p code := by
  have ranged : ¬ (15 < k ∨ records.length = 0 ∨ 16 < records.length) := by omega
  simp only [State.writeRecords, if_neg ranged, if_neg open_, noted]

/-- A record frame that is refused with its fault recorded changes its port and the record, and answers with the code. -/
theorem State.faulted_onFrame {body : State → State} {command : FaultCommand} {slot index : Nat} {kinds : FaultKinds}
    {code : ReplyCode} (takes : s.takesFrame .p = true)
    (faults : body s.framed = (s.framed.recordFault .portP (some command) slot index kinds).refuse .p code) :
    ∃ t, (.next (s.onFrame .p body) : Result) = .next t ∧ s.answers t .p code [] ∧
      t = { s.loseReply .p with portP := t.portP, faultRecord := t.faultRecord } ∧
      t.faultRecord = if s.faultRecord.frozen then { s.faultRecord with kinds := s.faultRecord.kinds.union kinds }
        else ⟨true, some .portP, some command, some slot, some index, kinds⟩ := by
  have record := s.framed.faultRecord_recordFault .portP (some command) slot index kinds
  obtain ⟨f, e, -⟩ := s.framed.recordFault_eq .portP (some command) slot index kinds
  rw [e] at faults record
  obtain ⟨ran, answers⟩ := State.replied_onFrame takes faults rfl
  exact ⟨_, rfl, by rw [ran]; exact ⟨answers, rfl, record⟩⟩

/-- Settles O11: the kinds noted decide the refusal and go to the access fault record, which CLEAR_FAULT_RECORD empties. -/
theorem accessFaultsRecordedAndCleared : Obligations.AccessFaultsRecordedAndCleared := by
  refine ⟨fun s k index write records count takes slot pos le counted open_ => ?_, fun s takes => ⟨_, rfl, ?_⟩⟩
  · intro absent long readOnly noted
    have code := FaultKinds.replyCode_some (k := s.framed.accessKinds k index count write) noted
    have kinds := s.faultRecord.kinds.union_accessKinds s.framed k index count write
    cases write with
    | true =>
      subst counted
      obtain ⟨t, run, answers, form, record⟩ := State.faulted_onFrame (body := fun t => t.writeRecords k index records)
        takes (State.writeRecords_faulted slot pos le (open_ rfl) code)
      exact ⟨t, run, answers, form, by rw [record, kinds]; rfl⟩
    | false =>
      obtain ⟨t, run, answers, form, record⟩ := State.faulted_onFrame (body := fun t => t.readRecords k index count)
        takes (State.readRecords_faulted slot pos le code)
      exact ⟨t, run, answers, form, by rw [record, kinds]; rfl⟩
  · obtain ⟨ran, answers⟩ := State.replied_onFrame
      (body := fun t => (t.withFaultRecord .reset).reply .p .ok (faultBytes t.faultRecord)) takes rfl rfl
    rw [ran]
    exact ⟨answers, rfl, rfl⟩

end Sys2Proof.Machine
end

section
/-! PROOF SUPPORT. O17: what the close scan finds in the records of a chunk (R33). -/

namespace Sys2Proof.Machine

open Sys2Proof

/-! ### One record (R33) -/

/-- Whether a record leads to a position: a STITCH or a JUMP (3.1). -/
def leads (r : StitchRecord) : Bool := decide (r.kind = .stitch) || decide (r.kind = .jump)

/-- What a record that passes adds to the scan. -/
def CloseScan.pass (c : CloseScan) (r : StitchRecord) : CloseScan :=
  { slot := c.slot, index := c.index + 1, position := positionAfter c.position r
    colours := c.colours + if r.kind = .colour then 1 else 0
    stitches := c.stitches + if r.kind = .stitch then 1 else 0
    extents := if leads r then c.extents.widen (positionAfter c.position r) else c.extents }

/-- The checks of a record: END exactly at L−1, the colour count, the span of the position it leads to. -/
def CloseScan.accepts (len : Nat) (c : CloseScan) (r : StitchRecord) : Prop :=
  (r.kind = .endRecord ↔ c.index = len - 1) ∧ (r.kind = .colour → c.colours + 1 ≠ 128) ∧
    (r.kind = .stitch ∨ r.kind = .jump → inSpan (positionAfter c.position r) = true)

/-- The cause with which the scan stops at a record that does not pass. -/
def CloseScan.causeAt (len : Nat) (c : CloseScan) (r : StitchRecord) : CloseCause :=
  if r.kind = .endRecord then .earlyEnd else if c.index = len - 1 then .noEnd
  else if r.kind = .colour then .colourCount else .span

section scan

variable {len : Nat} {c : CloseScan} {r : StitchRecord}

theorem leads_iff : leads r = true ↔ r.kind = .stitch ∨ r.kind = .jump := by
  simp only [leads, Bool.or_eq_true, decide_eq_true_eq]

/-- A record below L that is END exactly at L−1 is decided by the colour count and the span. -/
theorem scanRecord_of_last (below : c.index < len) (last : r.kind = .endRecord ↔ c.index = len - 1) :
    scanRecord len c r =
      if r.kind = .colour ∧ c.colours + 1 = 128 then .inr .colourCount
      else if leads r = true ∧ ¬ inSpan (positionAfter c.position r) = true then .inr .span
      else .inl (c.pass r) := by
  have early : ¬ (r.kind = .endRecord ∧ c.index < len - 1) := by rw [last]; omega
  have late : ¬ (r.kind ≠ .endRecord ∧ c.index = len - 1) := by rw [Ne, last]; omega
  simp only [scanRecord, if_neg early, if_neg late]
  obtain ⟨kind, slow, dx, dy⟩ := r
  cases kind with
  | stitch => cases span : inSpan (c.position.plus ⟨dx, dy⟩) <;> simp [leads, positionAfter, CloseScan.pass, span]
  | jump => cases span : inSpan (c.position.plus ⟨dx, dy⟩) <;> simp [leads, positionAfter, CloseScan.pass, span]
  | colour => by_cases full : c.colours + 1 = 128 <;> simp [leads, positionAfter, CloseScan.pass, full]
  | trim => rfl
  | pause => rfl
  | endRecord => rfl

/-- A record below L that passes takes the scan past it. -/
theorem scanRecord_of_accepts (below : c.index < len) (h : c.accepts len r) : scanRecord len c r = .inl (c.pass r) := by
  obtain ⟨last, colours, span⟩ := h
  rw [scanRecord_of_last below last, if_neg fun full => colours full.1 full.2,
    if_neg fun out => out.2 (span (leads_iff.mp out.1))]

/-- One that does not pass stops it, with its cause. -/
theorem scanRecord_of_not_accepts (below : c.index < len) (h : ¬ c.accepts len r) :
    scanRecord len c r = .inr (c.causeAt len r) := by
  by_cases last : r.kind = .endRecord ↔ c.index = len - 1
  · rw [scanRecord_of_last below last]
    by_cases full : r.kind = .colour ∧ c.colours + 1 = 128
    · have live : r.kind ≠ .endRecord := by rw [full.1]; nofun
      rw [if_pos full, CloseScan.causeAt, if_neg live, if_neg (last.not.mp live), if_pos full.1]
    · by_cases out : leads r = true ∧ ¬ inSpan (positionAfter c.position r) = true
      · have kind := leads_iff.mp out.1
        have live : r.kind ≠ .endRecord := by rcases kind with e | e <;> (rw [e]; nofun)
        have plain : r.kind ≠ .colour := by rcases kind with e | e <;> (rw [e]; nofun)
        rw [if_neg full, if_pos out, CloseScan.causeAt, if_neg live, if_neg (last.not.mp live), if_neg plain]
      · refine absurd ⟨last, fun colour count => full ⟨colour, count⟩, fun kind => ?_⟩ h
        by_contra span
        exact out ⟨leads_iff.mpr kind, span⟩
  · by_cases kind : r.kind = .endRecord
    · have early : c.index < len - 1 := by
        have other : c.index ≠ len - 1 := fun e => last ⟨fun _ => e, fun _ => kind⟩
        omega
      rw [scanRecord, if_pos ⟨kind, early⟩, CloseScan.causeAt, if_pos kind]
    · have late : c.index = len - 1 := by
        by_contra other
        exact last ⟨fun e => absurd e kind, fun e => absurd e other⟩
      rw [scanRecord, if_neg fun early => kind early.1, if_pos ⟨kind, late⟩, CloseScan.causeAt, if_neg kind, if_pos late]

end scan

/-! ### The records of a chunk (R33) -/

/-- The scan after the first `j` of the records it sees. -/
def CloseScan.passed (c : CloseScan) (seen : List StitchRecord) (j : Nat) : CloseScan := (seen.take j).foldl CloseScan.pass c

/-- The records that are examined from a scan below L on: those at an index below L. -/
theorem take_seen {len : Nat} {c : CloseScan} (below : c.index < len) (r : StitchRecord) (rest : List StitchRecord) :
    (r :: rest).take (len - c.index) = r :: rest.take (len - (c.pass r).index) := by
  rw [show len - c.index = len - (c.pass r).index + 1 by simp only [CloseScan.pass]; omega, List.take_succ_cons]

/-- A chunk with no fault: every record below L passes, and the scan goes past them all. -/
theorem scanRecords_passed {len : Nat} {rs : List StitchRecord} {c d : CloseScan}
    (h : scanRecords len c rs = (d, none)) :
    (∀ j r, (rs.take (len - c.index))[j]? = some r → (c.passed (rs.take (len - c.index)) j).accepts len r) ∧
      d = (rs.take (len - c.index)).foldl CloseScan.pass c := by
  induction rs generalizing c with
  | nil =>
    obtain rfl : c = d := congrArg Prod.fst h
    exact ⟨fun j r e => by simp at e, by simp⟩
  | cons r rest ih =>
    rw [scanRecords] at h
    by_cases past : len ≤ c.index
    · rw [if_pos past] at h
      obtain rfl : c = d := congrArg Prod.fst h
      rw [Nat.sub_eq_zero_of_le past]
      exact ⟨fun j r e => by simp at e, rfl⟩
    · rw [if_neg past] at h
      rw [take_seen (by omega)]
      by_cases accepts : c.accepts len r
      · rw [scanRecord_of_accepts (by omega) accepts] at h
        obtain ⟨later, e⟩ := ih h
        refine ⟨fun j q at_ => ?_, e⟩
        cases j with
        | zero =>
          obtain rfl : r = q := by simpa using at_
          exact accepts
        | succ j => exact later j q at_
      · rw [scanRecord_of_not_accepts (by omega) accepts] at h
        cases h

/-- A chunk with a fault: the first record below L that does not pass, the scan in front of it, and its cause. -/
theorem scanRecords_stopped {len : Nat} {rs : List StitchRecord} {c d : CloseScan} {cause : CloseCause}
    (h : scanRecords len c rs = (d, some cause)) :
    ∃ j r, (rs.take (len - c.index))[j]? = some r ∧
      (∀ i q, i < j → (rs.take (len - c.index))[i]? = some q → (c.passed (rs.take (len - c.index)) i).accepts len q) ∧
      ¬ (c.passed (rs.take (len - c.index)) j).accepts len r ∧ d = c.passed (rs.take (len - c.index)) j ∧
      cause = d.causeAt len r := by
  induction rs generalizing c with
  | nil => cases h
  | cons r rest ih =>
    rw [scanRecords] at h
    by_cases past : len ≤ c.index
    · rw [if_pos past] at h
      cases h
    · rw [if_neg past] at h
      rw [take_seen (by omega)]
      by_cases accepts : c.accepts len r
      · rw [scanRecord_of_accepts (by omega) accepts] at h
        obtain ⟨j, q, at_, before, fault, e, why⟩ := ih h
        refine ⟨j + 1, q, at_, fun i p lt here => ?_, fault, e, why⟩
        cases i with
        | zero =>
          obtain rfl : r = p := by simpa using here
          exact accepts
        | succ i => exact before i p (by omega) here
      · rw [scanRecord_of_not_accepts (by omega) accepts] at h
        cases h
        exact ⟨0, r, rfl, fun i _ lt => absurd lt (Nat.not_lt_zero i), accepts, rfl, rfl⟩

/-- The colour count stays below 128. -/
theorem scanRecords_colours {len : Nat} {rs : List StitchRecord} {c d : CloseScan}
    (h : scanRecords len c rs = (d, none)) (le : c.colours ≤ 127) : d.colours ≤ 127 := by
  induction rs generalizing c with
  | nil => cases h; exact le
  | cons r rest ih =>
    rw [scanRecords] at h
    split at h
    · cases h; exact le
    · next below =>
      by_cases accepts : c.accepts len r
      · rw [scanRecord_of_accepts (by omega) accepts] at h
        refine ih h ?_
        obtain ⟨-, colours, -⟩ := accepts
        simp only [CloseScan.pass]
        split
        · next colour => have := colours colour; omega
        · omega
      · rw [scanRecord_of_not_accepts (by omega) accepts] at h
        cases h

/-! ### The scan after some records, written out -/

/-- The positions that the STITCH and JUMP records among the first `j` lead to. -/
def movedTo (start : Point) (seen : List StitchRecord) (j : Nat) : List Point :=
  ((List.range j).filter fun i => seen[i]?.any leads).map fun i => positionOf start (seen.take (i + 1))

/-- Positions taken in one after another widen the extents to the least and the greatest of them. -/
theorem foldl_widen (l : List Point) (e : Extents) : l.foldl Extents.widen e =
    ⟨l.foldl (fun m d => min m d.x) e.xmin, l.foldl (fun m d => max m d.x) e.xmax,
      l.foldl (fun m d => min m d.y) e.ymin, l.foldl (fun m d => max m d.y) e.ymax⟩ := by
  induction l generalizing e with
  | nil => rfl
  | cons d rest ih => exact ih (e.widen d)

section written

variable {seen : List StitchRecord} {j : Nat} {r : StitchRecord} (at_ : seen[j]? = some r)
include at_

theorem take_succ_of_get : seen.take (j + 1) = seen.take j ++ [r] := by
  rw [List.take_add_one, at_]
  rfl

theorem positionOf_take_succ (start : Point) :
    positionOf start (seen.take (j + 1)) = positionAfter (positionOf start (seen.take j)) r := by
  rw [take_succ_of_get at_, positionOf, List.foldl_concat]
  rfl

theorem movedTo_succ (start : Point) : movedTo start seen (j + 1) =
    movedTo start seen j ++ if leads r then [positionOf start (seen.take (j + 1))] else [] := by
  rw [movedTo, List.range_succ, List.filter_append, List.map_append]
  refine congrArg (movedTo start seen j ++ ·) ?_
  cases leads_r : leads r <;> simp [List.filter, at_, leads_r]

theorem count_take_succ (kind : RecordKind) : ((seen.take (j + 1)).filter fun r => decide (r.kind = kind)).length =
    ((seen.take j).filter fun r => decide (r.kind = kind)).length + if r.kind = kind then 1 else 0 := by
  rw [take_succ_of_get at_, List.filter_append, List.length_append]
  by_cases same : r.kind = kind <;> simp [same]

end written

/-- The scan after `j` records: index, position, counts and extents by what they hold. -/
theorem CloseScan.passed_eq (c : CloseScan) {seen : List StitchRecord} {j : Nat} (le : j ≤ seen.length) :
    c.passed seen j =
      { slot := c.slot, index := c.index + j, position := positionOf c.position (seen.take j)
        colours := c.colours + ((seen.take j).filter fun r => decide (r.kind = .colour)).length
        stitches := c.stitches + ((seen.take j).filter fun r => decide (r.kind = .stitch)).length
        extents := (movedTo c.position seen j).foldl Extents.widen c.extents } := by
  induction j with
  | zero => rfl
  | succ j ih =>
    have at_ := List.getElem?_eq_getElem (show j < seen.length by omega)
    have step : c.passed seen (j + 1) = (c.passed seen j).pass seen[j] := by
      rw [CloseScan.passed, take_succ_of_get at_, List.foldl_concat]
      rfl
    rw [step, ih (by omega), CloseScan.pass, movedTo_succ at_, List.foldl_append]
    simp only [positionOf_take_succ at_, count_take_succ at_, Nat.add_assoc]
    cases leads seen[j] <;> rfl

theorem inSpan_iff (d : Point) :
    inSpan d = true ↔ -100000 ≤ d.x ∧ d.x ≤ 100000 ∧ -100000 ≤ d.y ∧ d.y ≤ 100000 := by
  simp only [inSpan, decide_eq_true_eq]

/-- The checks of record `j`, written out. -/
theorem CloseScan.accepts_passed {len : Nat} {c : CloseScan} {seen : List StitchRecord} {j : Nat} {r : StitchRecord}
    (at_ : seen[j]? = some r) : (c.passed seen j).accepts len r ↔
      (r.kind = .endRecord ↔ c.index + j = len - 1) ∧
      (r.kind = .colour →
        c.colours + ((seen.take j).filter fun r => decide (r.kind = .colour)).length + 1 ≠ 128) ∧
      (r.kind = .stitch ∨ r.kind = .jump →
        -100000 ≤ (positionOf c.position (seen.take (j + 1))).x ∧ (positionOf c.position (seen.take (j + 1))).x ≤ 100000 ∧
        -100000 ≤ (positionOf c.position (seen.take (j + 1))).y ∧
          (positionOf c.position (seen.take (j + 1))).y ≤ 100000) := by
  obtain ⟨below, -⟩ := List.getElem?_eq_some_iff.mp at_
  rw [CloseScan.passed_eq c below.le, CloseScan.accepts, inSpan_iff, positionOf_take_succ at_]

/-- Settles O17: the records below L pass one after another, up to the first that does not. -/
theorem closeScanExaminesRecords : Obligations.CloseScanExaminesRecords := by
  intro len c rs seen count position moved upTo passes
  have written : ∀ j, j ≤ seen.length → c.passed seen j = upTo j := fun j le =>
    (c.passed_eq le).trans (congrArg (CloseScan.mk _ _ _ _ _) (foldl_widen _ _))
  refine ⟨fun d clean => ?_, fun d cause stops => ?_⟩
  · obtain ⟨accepts, all⟩ := scanRecords_passed clean
    refine ⟨fun j r at_ => (CloseScan.accepts_passed at_).mp (accepts j r at_), ?_, scanRecords_colours clean⟩
    rw [← written _ le_rfl, CloseScan.passed, List.take_length]
    exact all
  · obtain ⟨j, r, at_, before, fault, here, why⟩ := scanRecords_stopped stops
    obtain ⟨below, -⟩ := List.getElem?_eq_some_iff.mp at_
    rw [written j below.le] at here
    refine ⟨j, r, at_, fun i q lt q_at => (CloseScan.accepts_passed q_at).mp (before i q lt q_at),
      fun passes => fault ((CloseScan.accepts_passed at_).mpr passes), here, ?_⟩
    rw [why, here]
    rfl

end Sys2Proof.Machine
end

section
/-! PROOF SUPPORT. The end of an internal read (R14, R16), the fault it records (R23), and O18: the end of a close scan read. -/

namespace Sys2Proof.Machine

open Sys2Proof

variable {s : State}

/-! ### The end of an internal read (R14) -/

/-- A grant leaves every request that does not wait. -/
theorem Arbiter.request_grant {a : Arbiter} {r : Requester} (h : ∀ x, a.request r ≠ .waiting x) :
    a.grant.request r = a.request r := by
  have granted : ∀ q b, a.grantTo q = some b → b.request r = a.request r := by
    intro q b e
    unfold Arbiter.grantTo at e
    split at e
    · next x waits =>
      obtain rfl := Option.some.inj e
      have other : r ≠ q := fun same => h x (same ▸ waits)
      exact (Arbiter.request_putRequest a q r _).trans (if_neg other)
    · cases e
  unfold Arbiter.grant
  split
  · rfl
  · split
    · next e => exact granted _ _ e
    · split
      · next e => exact granted _ _ e
      · split
        · next e => exact granted _ _ e
        · split
          · next e => exact granted _ _ e
          · split
            · cases r <;> rfl
            · rfl

/-- A requester whose access has ended pauses. -/
theorem State.request_endAccess (s : State) (r : Requester) : (s.endAccess r).arbiter.request r = .pausing := by
  have paused : ({ s.arbiter.putRequest r .pausing with holder := none } : Arbiter).request r = .pausing := by
    cases r <;> rfl
  exact (Arbiter.request_grant (by rw [paused]; nofun)).trans paused

/-- A fault of an internal requester handed to the access fault record stands in it; an unfrozen one takes it whole (R23). -/
theorem State.recordFault_taken (s : State) (source : FaultSource) (command : Option FaultCommand) (slot index : Nat) :
    ∃ f, s.recordFault source command slot index .memory = s.withFaultRecord f ∧ f.frozen = true ∧
      f.kinds.uncorrectable = true ∧
      (s.faultRecord.frozen = false →
        f = ⟨true, some source, command, some slot, some index, ⟨false, false, false, true⟩⟩) := by
  obtain ⟨f, e, frozen, kinds⟩ := s.recordFault_eq source command slot index .memory
  refine ⟨f, e, frozen, ?_, fun unfrozen => ?_⟩
  · rw [kinds]
    split
    · exact Bool.or_true _
    · rfl
  · have record := s.faultRecord_recordFault source command slot index .memory
    rw [e, unfrozen] at record
    exact record

/-! ### The ends of a close scan (R34) -/

/-- A failed scan: its slot LOADING or DAMAGED, the scan gone, CLOSE_FAILED posted. -/
theorem State.failScan_eq (s : State) (c : CloseScan) (cause : CloseCause) (index : Nat) : ∃ q,
    s.failScan c cause index = ((s.withScan none).putSlot c.slot { s.slot c.slot with
      state := if cause = .uncorrectable then .damaged else .loading }).withEvents q := State.post_eq _ _ _ _

/-- A scan that succeeds: its slot READY with what was found, the scan gone, CLOSE_DONE posted. -/
theorem State.passScan_eq (s : State) (c : CloseScan) : ∃ q,
    s.passScan c = ((s.withScan none).putSlot c.slot { s.slot c.slot with
      state := .ready, colourCount := c.colours, stitchCount := c.stitches, extents := c.extents }).withEvents q :=
  State.post_eq _ _ _ _

theorem State.slot_failScan (s : State) (c : CloseScan) (cause : CloseCause) (index j : Nat) :
    (s.failScan c cause index).slot j = if j = c.slot then
      { s.slot c.slot with state := if cause = .uncorrectable then .damaged else .loading } else s.slot j := by
  obtain ⟨q, e⟩ := s.failScan_eq c cause index
  rw [e]
  exact s.slot_putSlot c.slot j _

theorem State.slot_passScan (s : State) (c : CloseScan) (j : Nat) : (s.passScan c).slot j = if j = c.slot then
    { s.slot c.slot with
      state := .ready, colourCount := c.colours, stitchCount := c.stitches, extents := c.extents } else s.slot j := by
  obtain ⟨q, e⟩ := s.passScan_eq c
  rw [e]
  exact s.slot_putSlot c.slot j { s.slot c.slot with
    state := .ready, colourCount := c.colours, stitchCount := c.stitches, extents := c.extents }

/-- CLOSE_FAILED's parameter: slot, cause and index in their bits (R156). -/
theorem State.failScan_posted (s : State) (c : CloseScan) (cause : CloseCause) (index : Nat) :
    (s.failScan c cause index).posted
      [(.closeFailed, 0, BitVec.ofNat 32 (c.slot % 16 * 2 ^ 28 + cause.code * 2 ^ 24 + index % 2 ^ 18))] := by
  have param : closeFailedParam c.slot cause index =
      BitVec.ofNat 32 (c.slot % 16 * 2 ^ 28 + cause.code * 2 ^ 24 + index % 2 ^ 18) := by
    rw [closeFailedParam, paramField, paramField, paramField, Nat.pow_zero, Nat.mul_one]
    cases cause <;> rfl
  rw [← param]
  exact State.posted_post _ _ _ _

theorem State.passScan_posted (s : State) (c : CloseScan) :
    (s.passScan c).posted [(.closeDone, 0, BitVec.ofNat 32 (c.slot % 16))] := by
  have param : paramField 4 0 c.slot = c.slot % 16 := by rw [paramField, Nat.pow_zero, Nat.mul_one]; rfl
  rw [← param]
  exact State.posted_post _ _ _ _

/-! ### The examination of the chunk read (R33) -/

section scanChunk

variable {c d : CloseScan} {chunk : Chunk}

theorem State.scanChunk_incomplete (partly : chunk.state ≠ .complete) (result : ReadResult) :
    s.scanChunk c chunk result = s.failScan c .incomplete (missingIndex chunk c.index (s.slot c.slot).length) :=
  if_pos partly

theorem State.scanChunk_uncorrectable (complete : chunk.state = .complete) : s.scanChunk c chunk .uncorrectable =
    (s.recordFault .closeScan (some .closeDesign) c.slot c.index .memory).failScan c .uncorrectable c.index :=
  if_neg (not_not.mpr complete)

theorem State.scanChunk_stops {rs : List StitchRecord} {flag : Bool} {cause : CloseCause} (complete : chunk.state = .complete)
    (stops : scanRecords (s.slot c.slot).length c rs = (d, some cause)) :
    s.scanChunk c chunk (.records rs flag) = s.failScan d cause d.index := by
  simp only [State.scanChunk, complete, ne_eq, not_true_eq_false, if_false, stops]

theorem State.scanChunk_passes {rs : List StitchRecord} {flag : Bool} (complete : chunk.state = .complete)
    (passes : scanRecords (s.slot c.slot).length c rs = (d, none)) :
    s.scanChunk c chunk (.records rs flag) =
      if (s.slot c.slot).length ≤ d.index then s.passScan d else s.withScan (some d) := by
  simp only [State.scanChunk, complete, ne_eq, not_true_eq_false, if_false, passes]

/-- Whatever it finds, the examination touches its own slot alone, and not the arbiter. -/
theorem State.scanChunk_frame (s : State) (c : CloseScan) (chunk : Chunk) (result : ReadResult) :
    (s.scanChunk c chunk result).arbiter = s.arbiter ∧
      ∀ j, j ≠ c.slot → (s.scanChunk c chunk result).slot j = s.slot j := by
  have fails : ∀ (u : State) (d : CloseScan) (cause : CloseCause) (index : Nat), u.arbiter = s.arbiter →
      u.slots = s.slots → d.slot = c.slot → (u.failScan d cause index).arbiter = s.arbiter ∧
        ∀ j, j ≠ c.slot → (u.failScan d cause index).slot j = s.slot j := by
    intro u d cause index arbiter slots same
    refine ⟨?_, fun j other => ?_⟩
    · obtain ⟨q, e⟩ := u.failScan_eq d cause index
      rw [e]
      exact arbiter
    · rw [State.slot_failScan, same, if_neg other, State.slot_congr slots]
  by_cases complete : chunk.state = .complete
  · cases result with
    | uncorrectable =>
      rw [State.scanChunk_uncorrectable complete]
      obtain ⟨f, e, -⟩ := s.recordFault_taken .closeScan (some .closeDesign) c.slot c.index
      rw [e]
      exact fails _ c _ _ rfl rfl rfl
    | records rs flag =>
      have slot := scanRecords_slot (s.slot c.slot).length c rs
      rcases found : scanRecords (s.slot c.slot).length c rs with ⟨d, _ | cause⟩
      · rw [found] at slot
        rw [State.scanChunk_passes complete found]
        split
        · refine ⟨?_, fun j other => ?_⟩
          · obtain ⟨q, e⟩ := s.passScan_eq d
            rw [e]
            rfl
          · rw [State.slot_passScan, slot, if_neg other]
        · exact ⟨rfl, fun _ _ => rfl⟩
      · rw [found] at slot
        rw [State.scanChunk_stops complete found]
        exact fails s d _ _ rfl rfl slot
  · rw [State.scanChunk_incomplete complete]
    exact fails s c _ _ rfl rfl rfl

end scanChunk

/-- The lowest record index below L of a chunk that is not in the written set. -/
theorem missingIndex_eq {chunk : Chunk} {first len p : Nat} (four : p < 4) (blank : chunk.cell p = .blank)
    (before : ∀ q, q < p → chunk.cell q ≠ .blank) (below : first + p < len) :
    missingIndex chunk first len = first + p := by
  have written : ∀ x : Cell, x.inSet = false ↔ x = .blank := by
    intro x
    cases x <;> simp [Cell.inSet]
  have found : (List.range 4).find? (fun p => !(chunk.cell p).inSet && decide (first + p < len)) = some p := by
    rw [List.find?_range_eq_some]
    refine ⟨?_, List.mem_range.mpr four, fun q lt => ?_⟩
    · simp [(written _).mpr blank, below]
    · have set : (chunk.cell q).inSet = true := by
        rw [← Bool.not_eq_false, written]
        exact before q lt
      simp [set]
  rw [missingIndex, List.headD_eq_head?_getD, List.head?_filter]
  exact congrArg (fun o : Option Nat => first + o.getD 0) found

/-! ### The end of a close scan read (R33, R34) -/

/-- The state after a close scan read made for scan `c`: the access ends, and the scan examines what was read. -/
def State.scanExamined (s : State) (c : CloseScan) (x : StoreRead) : State :=
  ((s.readChunk x.chunk).1.endAccess .closeScan).scanChunk c (s.chunk x.chunk) (s.readChunk x.chunk).2

section examined

variable {c d : CloseScan} {x : StoreRead}

theorem exec_closeScanReadDone (power : s.power ≠ .held) (holder : s.arbiter.holder = some (.internal .closeScan))
    (served : s.arbiter.closeScan = .served x true) (scan : s.scan = some c) :
    exec .closeScanReadDone s = .next (s.scanExamined c x) := by
  obtain ⟨st, v, e, -⟩ := s.readChunk_eq x.chunk
  have kept : ((s.readChunk x.chunk).1.endAccess .closeScan).scan = some c := by rw [e]; exact scan
  refine congrArg Host.Outcome.next ((State.onEvent_acts s _ power).trans ?_)
  simp only [State.closeScanReadDone, holder, served, kept, State.scanExamined]

/-- Whatever is read, the scan pauses and no other slot is touched. -/
theorem State.scanExamined_frame (s : State) (c : CloseScan) (x : StoreRead) :
    (s.scanExamined c x).arbiter.closeScan = .pausing ∧ ∀ j, j ≠ c.slot → (s.scanExamined c x).slot j = s.slot j := by
  obtain ⟨arbiter, others⟩ := ((s.readChunk x.chunk).1.endAccess .closeScan).scanChunk_frame c (s.chunk x.chunk)
    (s.readChunk x.chunk).2
  obtain ⟨st, v, e, -⟩ := s.readChunk_eq x.chunk
  refine ⟨?_, fun j other => (others j other).trans (by rw [e]; rfl)⟩
  rw [State.scanExamined, arbiter]
  exact State.request_endAccess _ .closeScan

/-- The examination by the outcome of the read. -/
theorem State.scanExamined_incomplete (partly : (s.chunk x.chunk).state ≠ .complete) : s.scanExamined c x =
    (s.endAccess .closeScan).failScan c .incomplete
      (missingIndex (s.chunk x.chunk) c.index (s.slot c.slot).length) := by
  rw [State.scanExamined, State.readChunk_unchecked partly]
  exact State.scanChunk_incomplete partly _

theorem State.scanExamined_uncorrectable (complete : (s.chunk x.chunk).state = .complete)
    (two : (s.chunk x.chunk).changed.length = 2) : s.scanExamined c x =
      ((s.endAccess .closeScan).recordFault .closeScan (some .closeDesign) c.slot c.index .memory).failScan c
        .uncorrectable c.index := by
  rw [State.scanExamined, State.readChunk_uncorrectable complete (Chunk.outcome_of_two two)]
  exact State.scanChunk_uncorrectable complete

theorem State.scanExamined_stops {cause : CloseCause} (complete : (s.chunk x.chunk).state = .complete)
    (clean : (s.chunk x.chunk).changed = [])
    (stops : scanRecords (s.slot c.slot).length c (s.chunk x.chunk).contents = (d, some cause)) :
    s.scanExamined c x = (s.endAccess .closeScan).failScan d cause d.index := by
  rw [State.scanExamined, State.readChunk_of_none clean]
  exact State.scanChunk_stops complete stops

theorem State.scanExamined_passes (complete : (s.chunk x.chunk).state = .complete)
    (clean : (s.chunk x.chunk).changed = [])
    (passes : scanRecords (s.slot c.slot).length c (s.chunk x.chunk).contents = (d, none)) :
    s.scanExamined c x = if (s.slot c.slot).length ≤ d.index then (s.endAccess .closeScan).passScan d
      else (s.endAccess .closeScan).withScan (some d) := by
  rw [State.scanExamined, State.readChunk_of_none clean]
  exact State.scanChunk_passes complete passes

end examined

/-- Settles O18: the read by its outcome, and the scan by what the records hold. -/
theorem closeScanReadEnds : Obligations.CloseScanReadEnds := by
  intro s c x power holder served scan chunk len failed
  obtain ⟨pausing, others⟩ := s.scanExamined_frame c x
  refine ⟨_, exec_closeScanReadDone power holder served scan, pausing, others, fun partly => ?_,
    fun complete clean => ⟨?_, fun d cause stops sound same => ?_, fun d passes same => ?_⟩, fun complete two => ?_⟩
  · rw [State.scanExamined_incomplete partly]
    refine ⟨?_, (State.slot_failScan _ _ _ _ _).trans (if_pos rfl), fun p four blank before below => ?_⟩
    · obtain ⟨q, e⟩ := (s.endAccess .closeScan).failScan_eq c .incomplete (missingIndex chunk c.index len)
      rw [e]
      rfl
    · rw [missingIndex_eq four blank before below]
      exact State.failScan_posted _ _ _ _
  · rcases found : scanRecords len c chunk.contents with ⟨d, _ | cause⟩
    · rw [State.scanExamined_passes complete clean found]
      split
      · obtain ⟨q, e⟩ := (s.endAccess .closeScan).passScan_eq d
        rw [e]
        rfl
      · rfl
    · obtain ⟨q, e⟩ := (s.endAccess .closeScan).failScan_eq d cause d.index
      rw [State.scanExamined_stops complete clean found, e]
      rfl
  · rw [State.scanExamined_stops complete clean stops, ← same]
    obtain ⟨q, e⟩ := (s.endAccess .closeScan).failScan_eq d cause d.index
    refine ⟨by rw [e]; rfl, ?_, ?_⟩
    · rw [State.slot_failScan, if_pos rfl, if_neg sound]
      rfl
    · have posted := (s.endAccess .closeScan).failScan_posted d cause d.index
      rw [same] at posted
      cases cause <;> exact posted
  · rw [State.scanExamined_passes complete clean passes]
    refine ⟨fun inside => ?_, fun past => ?_⟩
    · rw [if_neg (Nat.not_le.mpr inside)]
      exact ⟨rfl, rfl, rfl⟩
    · rw [if_pos past, ← same]
      refine ⟨?_, (State.slot_passScan _ _ _).trans (if_pos rfl), State.passScan_posted _ _⟩
      obtain ⟨q, e⟩ := (s.endAccess .closeScan).passScan_eq d
      rw [e]
      rfl
  · obtain ⟨a, ended⟩ := s.endAccess_eq .closeScan
    rw [State.scanExamined_uncorrectable complete two, ended]
    obtain ⟨f, e, frozen, uncorrectable, whole⟩ :=
      (s.withArbiter a).recordFault_taken .closeScan (some .closeDesign) c.slot c.index
    obtain ⟨q, fails⟩ := ((s.withArbiter a).withFaultRecord f).failScan_eq c .uncorrectable c.index
    rw [e]
    refine ⟨?_, (State.slot_failScan _ _ _ _ _).trans (if_pos rfl), State.failScan_posted _ _ _ _, ?_⟩
    · rw [fails]
      rfl
    · rw [fails]
      exact ⟨frozen, uncorrectable, whole⟩

end Sys2Proof.Machine
end

section
/-! PROOF SUPPORT. O24: the arm trace over the records of a chunk (R55), and the end of its read (R36, R62). -/

namespace Sys2Proof.Machine

open Sys2Proof

variable {s : State}

/-! ### The targets of a chunk's records (R55) -/

/-- Whether record `j` of those seen leads to a target outside the field. -/
def outsideAt (c : Constants) (tr : Transform) (start : Point) (seen : List StitchRecord) (j : Nat) : Prop :=
  ∃ r, seen[j]? = some r ∧ (r.kind = .stitch ∨ r.kind = .jump) ∧
    inField c (target tr (positionOf start (seen.take (j + 1)))) = false

section records

variable {c : Constants} {tr : Transform} {len : Nat}

theorem outsideAt_zero {start : Point} {r : StitchRecord} {rest : List StitchRecord} :
    outsideAt c tr start (r :: rest) 0 ↔ (leads r && !inField c (target tr (positionAfter start r))) = true := by
  have seen : outsideAt c tr start (r :: rest) 0 ↔ ∃ q, some r = some q ∧ (q.kind = .stitch ∨ q.kind = .jump) ∧
      inField c (target tr (positionAfter start r)) = false := Iff.rfl
  simp only [seen, Option.some.injEq, exists_eq_left', Bool.and_eq_true, leads_iff, Bool.not_eq_true']

theorem outsideAt_succ {start : Point} {r : StitchRecord} {rest : List StitchRecord} {j : Nat} :
    outsideAt c tr start (r :: rest) (j + 1) ↔ outsideAt c tr (positionAfter start r) rest j := Iff.rfl

/-- The trace at its next record: past L it ends, at a target outside the field it stops, else it goes on. -/
theorem traceRecords_cons (a : ArmTrace) (r : StitchRecord) (rest : List StitchRecord) :
    traceRecords c tr len a (r :: rest) =
      if len ≤ a.index then (a, none)
      else if (leads r && !inField c (target tr (positionAfter a.position r))) = true then
        (a, some (a.index, target tr (positionAfter a.position r)))
      else traceRecords c tr len ⟨a.index + 1, positionAfter a.position r⟩ rest := by
  rw [traceRecords]
  rfl

theorem take_traced {a : ArmTrace} (below : a.index < len) (r : StitchRecord) (rest : List StitchRecord) :
    (r :: rest).take (len - a.index) = r :: rest.take (len - (a.index + 1)) := by
  rw [show len - a.index = len - (a.index + 1) + 1 by omega, List.take_succ_cons]

/-- A trace that names no record has passed them all. -/
theorem traceRecords_passed {rs : List StitchRecord} {a b : ArmTrace} (h : traceRecords c tr len a rs = (b, none)) :
    (∀ j, ¬ outsideAt c tr a.position (rs.take (len - a.index)) j) ∧
      b.index = a.index + (rs.take (len - a.index)).length ∧
      b.position = positionOf a.position (rs.take (len - a.index)) := by
  have empty : ∀ j, ¬ outsideAt c tr a.position [] j := fun j ⟨r, at_, _⟩ => by simp at at_
  induction rs generalizing a with
  | nil =>
    obtain rfl : a = b := congrArg Prod.fst h
    rw [List.take_nil]
    exact ⟨empty, rfl, rfl⟩
  | cons r rest ih =>
    rw [traceRecords_cons] at h
    by_cases past : len ≤ a.index
    · rw [if_pos past] at h
      obtain rfl : a = b := congrArg Prod.fst h
      rw [Nat.sub_eq_zero_of_le past]
      exact ⟨empty, rfl, rfl⟩
    · rw [if_neg past] at h
      rw [take_traced (by omega)]
      split at h
      · cases h
      · next inside =>
        obtain ⟨none, index, position⟩ := ih h fun j ⟨r, at_, _⟩ => by simp at at_
        refine ⟨fun j => ?_, ?_, position⟩
        · cases j with
          | zero => exact fun out => inside (outsideAt_zero.mp out)
          | succ j => exact none j
        · rw [index, List.length_cons, Nat.add_assoc, Nat.add_comm 1]

/-- A trace that names a record names the first whose target lies outside the field, with that target. -/
theorem traceRecords_stopped {rs : List StitchRecord} {a b : ArmTrace} {i : Nat} {g : Point}
    (h : traceRecords c tr len a rs = (b, some (i, g))) :
    ∃ j, i = a.index + j ∧ outsideAt c tr a.position (rs.take (len - a.index)) j ∧
      g = target tr (positionOf a.position ((rs.take (len - a.index)).take (j + 1))) ∧
      ∀ k, k < j → ¬ outsideAt c tr a.position (rs.take (len - a.index)) k := by
  induction rs generalizing a with
  | nil => cases h
  | cons r rest ih =>
    rw [traceRecords_cons] at h
    by_cases past : len ≤ a.index
    · rw [if_pos past] at h
      cases h
    · rw [if_neg past] at h
      rw [take_traced (by omega)]
      split at h
      · next out =>
        cases h
        exact ⟨0, rfl, outsideAt_zero.mpr out, rfl, fun k lt => absurd lt (Nat.not_lt_zero k)⟩
      · next inside =>
        obtain ⟨j, index, out, goal, before⟩ := ih h
        refine ⟨j + 1, by rw [index, Nat.add_assoc, Nat.add_comm 1], out, goal, fun k lt => ?_⟩
        cases k with
        | zero => exact fun out => inside (outsideAt_zero.mp out)
        | succ k => exact before k (by omega)

end records

/-! ### The ends of a trace (R62) -/

/-- The state a trace that fails leaves before its event: the slot released, the run IDLE. -/
def State.traceFailed (s : State) (k : Nat) : State :=
  ((s.withTrace none).putSlot k { s.slot k with armed := false }).withRun { s.run with state := .idle, armedSlot := none }

section ends

variable {k : Nat} (arming : s.run.state = .arming) (armed : s.run.armedSlot = some k)

include arming armed

theorem State.passTrace_eq : s.passTrace =
    ((s.withTrace none).withRun { s.run with state := .armed }).post .armDone 0 (BitVec.ofNat 32 (k % 16)) := by
  have still : (s.withTrace none).run.state ≠ .running := by rw [State.withTrace_run, arming]; nofun
  rw [State.passTrace, State.setRunState_of_not_running _ _ still, armed, Option.getD_some, paramField, Nat.pow_zero,
    Nat.mul_one]
  rfl

theorem State.releaseToIdle_eq :
    (s.withTrace none).releaseSlot.setRunState .idle = s.traceFailed k := by
  have released : (s.withTrace none).releaseSlot =
      ((s.withTrace none).putSlot k { s.slot k with armed := false }).withRun { s.run with armedSlot := none } := by
    simp only [State.releaseSlot, State.withTrace_run, armed]
    rfl
  have still : (s.withTrace none).releaseSlot.run.state ≠ .running := by
    rw [released, State.withRun_run, arming]
    nofun
  rw [State.setRunState_of_not_running _ _ still, released]
  rfl

theorem State.failTraceField_eq (index : Nat) (goal : Point) : s.failTraceField index goal =
    (s.traceFailed k).postTarget .armFailed 0 (armFailedParam k 0 index) (some goal) := by
  simp only [State.failTraceField, State.releaseToIdle_eq arming armed, armed, Option.getD_some]

end ends

theorem State.slot_traceFailed (s : State) (k j : Nat) :
    (s.traceFailed k).slot j = if j = k then { s.slot k with armed := false } else s.slot j :=
  s.slot_putSlot k j { s.slot k with armed := false }

/-- The state in which a trace that meets an uncorrectable chunk has recorded the fault and damaged its slot (R36). -/
def State.traceFaulted (s : State) (k first : Nat) : State :=
  (s.recordFault .trace (some .arm) k first .memory).damageSlot k

theorem State.traceFaulted_eq (s : State) (k first : Nat) : ∃ f q,
    s.traceFaulted k first = (s.withFaultRecord f).withSlots q ∧ f.frozen = true ∧ f.kinds.uncorrectable = true ∧
      (s.faultRecord.frozen = false → f.source = some .trace ∧ f.command = some .arm ∧ f.slot = some k ∧
        f.index = some first) := by
  obtain ⟨f, e, frozen, uncorrectable, whole⟩ := s.recordFault_taken .trace (some .arm) k first
  obtain ⟨q, damaged⟩ := (s.withFaultRecord f).damageSlot_eq k
  refine ⟨f, q, by rw [State.traceFaulted, e, damaged], frozen, uncorrectable, fun unfrozen => ?_⟩
  rw [whole unfrozen]
  exact ⟨rfl, rfl, rfl, rfl⟩

theorem State.slot_traceFaulted (s : State) (k first j : Nat) : (s.traceFaulted k first).slot j = if j = k then
    { s.slot k with state := if (s.slot k).state = .ready then .damaged else (s.slot k).state } else s.slot j := by
  obtain ⟨f, e, -⟩ := s.recordFault_taken .trace (some .arm) k first
  rw [State.traceFaulted, e]
  split
  · next same =>
    rw [same]
    exact State.slot_damageSlot_same _ k
  · next other => exact State.slot_damageSlot_other _ other

theorem State.failTraceMemory_eq {k : Nat} (arming : s.run.state = .arming) (armed : s.run.armedSlot = some k)
    (first : Nat) : s.failTraceMemory first =
      ((s.traceFaulted k first).traceFailed k).post .armFailed 0 (armFailedParam k 1 first) := by
  have kept : (s.traceFaulted k first).run = s.run := by
    obtain ⟨f, q, e, -⟩ := s.traceFaulted_eq k first
    rw [e]
    rfl
  rw [← State.releaseToIdle_eq (by rw [kept, arming]) (by rw [kept, armed])]
  simp only [State.failTraceMemory, State.traceFaulted, armed, Option.getD_some]

/-- ARM_FAILED's parameter: slot, cause and index in their bits (R156). -/
theorem armFailedParam_eq (k : Nat) {code : Nat} (le : code ≤ 1) (index : Nat) :
    armFailedParam k code index = BitVec.ofNat 32 (k % 16 * 2 ^ 28 + code * 2 ^ 24 + index % 2 ^ 18) := by
  rw [armFailedParam, paramField, paramField, paramField, Nat.pow_zero, Nat.mul_one, pow_one,
    Nat.mod_eq_of_lt (show code < 2 by omega)]
  rfl

/-! ### The end of a trace read (R55) -/

theorem State.designLength_of_armed {k : Nat} (armed : s.run.armedSlot = some k) :
    s.designLength = (s.slot k).length := by
  simp only [State.designLength, State.armedRecord, armed]

/-- The state after a trace read made for trace `a`: the access ends, and the trace examines what was read. -/
def State.traceExamined (s : State) (a : ArmTrace) (x : StoreRead) : State :=
  ((s.readChunk x.chunk).1.endAccess .trace).traceChunk a (s.readChunk x.chunk).2

section examined

variable {a b : ArmTrace} {x : StoreRead} {k : Nat}

theorem exec_traceReadDone (power : s.power ≠ .held) (holder : s.arbiter.holder = some (.internal .trace))
    (served : s.arbiter.trace = .served x true) (tracing : s.trace = some a) :
    exec .traceReadDone s = .next (s.traceExamined a x) := by
  obtain ⟨st, v, e, -⟩ := s.readChunk_eq x.chunk
  have kept : ((s.readChunk x.chunk).1.endAccess .trace).trace = some a := by rw [e]; exact tracing
  refine congrArg Host.Outcome.next ((State.onEvent_acts s _ power).trans ?_)
  simp only [State.traceReadDone, holder, served, kept, State.traceExamined]

variable (arming : s.run.state = .arming) (armed : s.run.armedSlot = some k)
include arming armed

/-- The trace over records all of whose targets lie in the field goes on, or past record L−1 makes the run ARMED. -/
theorem State.traceChunk_inside {rs : List StitchRecord} {flag : Bool}
    (inside : traceRecords s.constants s.run.transform (s.slot k).length a rs = (b, none)) :
    s.traceChunk a (.records rs flag) = if (s.slot k).length ≤ b.index then
        ((s.withTrace none).withRun { s.run with state := .armed }).post .armDone 0 (BitVec.ofNat 32 (k % 16))
      else s.withTrace (some b) := by
  have length := State.designLength_of_armed armed
  simp only [State.traceChunk, length, inside, State.passTrace_eq arming armed]

/-- The trace over records of which one leads outside the field fails with it. -/
theorem State.traceChunk_outside {rs : List StitchRecord} {flag : Bool} {i : Nat} {g : Point}
    (outside : traceRecords s.constants s.run.transform (s.slot k).length a rs = (b, some (i, g))) :
    s.traceChunk a (.records rs flag) =
      (s.traceFailed k).postTarget .armFailed 0 (armFailedParam k 0 i) (some g) := by
  have length := State.designLength_of_armed armed
  simp only [State.traceChunk, length, outside, State.failTraceField_eq arming armed]

/-- An uncorrectable chunk fails the trace, its fault recorded and its slot damaged. -/
theorem State.traceChunk_uncorrectable (a : ArmTrace) : s.traceChunk a .uncorrectable =
    ((s.traceFaulted k a.index).traceFailed k).post .armFailed 0 (armFailedParam k 1 a.index) :=
  State.failTraceMemory_eq arming armed a.index

/-- Whatever it finds, the trace leaves the arbiter. -/
theorem State.traceChunk_arbiter (a : ArmTrace) (result : ReadResult) : (s.traceChunk a result).arbiter = s.arbiter := by
  have posts : ∀ (u : State) (kind : EventKind) (param : BitVec 32) (goal : Option Point), u.arbiter = s.arbiter →
      (u.postTarget kind 0 param goal).arbiter = s.arbiter := by
    intro u kind param goal same
    obtain ⟨v, e⟩ := u.postTarget_eq kind 0 param goal
    rw [e]
    exact same
  cases result with
  | uncorrectable =>
    rw [State.traceChunk_uncorrectable arming armed]
    obtain ⟨f, q, faulted, -⟩ := s.traceFaulted_eq k a.index
    exact posts _ _ _ none (by rw [faulted]; rfl)
  | records rs flag =>
    rcases found : traceRecords s.constants s.run.transform (s.slot k).length a rs with ⟨b, _ | ⟨i, g⟩⟩
    · rw [State.traceChunk_inside arming armed found]
      split
      · exact posts _ _ _ none rfl
      · rfl
    · rw [State.traceChunk_outside arming armed found]
      exact posts _ _ _ _ rfl

/-- Whatever is read, the trace pauses. -/
theorem State.traceExamined_pauses (a : ArmTrace) (x : StoreRead) : (s.traceExamined a x).arbiter.trace = .pausing := by
  obtain ⟨st, v, e, -⟩ := s.readChunk_eq x.chunk
  have kept : ((s.readChunk x.chunk).1.endAccess .trace).run = s.run := by rw [e]; rfl
  rw [State.traceExamined, State.traceChunk_arbiter (by rw [kept, arming]) (by rw [kept, armed])]
  exact State.request_endAccess _ .trace

/-- The examination by what the read found. -/
theorem State.traceExamined_inside (clean : (s.chunk x.chunk).changed = [])
    (inside : traceRecords s.constants s.run.transform (s.slot k).length a (s.chunk x.chunk).contents = (b, none)) :
    s.traceExamined a x = if (s.slot k).length ≤ b.index then
        (((s.endAccess .trace).withTrace none).withRun { s.run with state := .armed }).post .armDone 0
          (BitVec.ofNat 32 (k % 16))
      else (s.endAccess .trace).withTrace (some b) := by
  rw [State.traceExamined, State.readChunk_of_none clean]
  exact State.traceChunk_inside (s := s.endAccess .trace) arming armed inside

theorem State.traceExamined_outside {i : Nat} {g : Point} (clean : (s.chunk x.chunk).changed = [])
    (outside : traceRecords s.constants s.run.transform (s.slot k).length a (s.chunk x.chunk).contents =
      (b, some (i, g))) : s.traceExamined a x =
      ((s.endAccess .trace).traceFailed k).postTarget .armFailed 0 (armFailedParam k 0 i) (some g) := by
  rw [State.traceExamined, State.readChunk_of_none clean]
  exact State.traceChunk_outside (s := s.endAccess .trace) arming armed outside

theorem State.traceExamined_uncorrectable (complete : (s.chunk x.chunk).state = .complete)
    (two : (s.chunk x.chunk).changed.length = 2) : s.traceExamined a x =
      (((s.endAccess .trace).traceFaulted k a.index).traceFailed k).post .armFailed 0 (armFailedParam k 1 a.index) := by
  rw [State.traceExamined, State.readChunk_uncorrectable complete (Chunk.outcome_of_two two)]
  exact State.traceChunk_uncorrectable (s := s.endAccess .trace) arming armed a

end examined

/-- Settles O24: the trace record by record, and the end of its read by what it found. -/
theorem traceFindsFirstOutsideField : Obligations.TraceFindsFirstOutsideField := by
  refine ⟨fun c tr len a rs => ⟨fun b => traceRecords_passed, fun b i g => traceRecords_stopped⟩,
    fun s a x k power holder served tracing arming armed complete => ?_⟩
  refine ⟨_, exec_traceReadDone power holder served tracing, State.traceExamined_pauses arming armed a x,
    fun clean b inside => ?_, fun clean b i g outside => ?_, fun two => ?_⟩
  · rw [State.traceExamined_inside arming armed clean inside]
    by_cases past : (s.slot k).length ≤ b.index
    · rw [if_pos past]
      have posted := State.posted_post (((s.endAccess .trace).withTrace none).withRun { s.run with state := .armed })
        .armDone 0 (BitVec.ofNat 32 (k % 16))
      obtain ⟨v, e⟩ := State.post_eq (((s.endAccess .trace).withTrace none).withRun { s.run with state := .armed })
        .armDone 0 (BitVec.ofNat 32 (k % 16))
      rw [e] at posted ⊢
      exact ⟨rfl, fun below => absurd past (Nat.not_le.mpr below), fun _ => ⟨rfl, rfl, posted⟩⟩
    · rw [if_neg past]
      exact ⟨rfl, fun _ => ⟨rfl, rfl, rfl⟩, fun reached => absurd reached past⟩
  · rw [State.traceExamined_outside arming armed clean outside]
    have slot := (s.endAccess .trace).slot_traceFailed k
    obtain ⟨v, e⟩ := ((s.endAccess .trace).traceFailed k).postTarget_eq .armFailed 0 (armFailedParam k 0 i) (some g)
    refine ⟨by rw [e]; rfl, by rw [e]; rfl, ?_, fun j other => ?_, fun logs => ?_⟩
    · rw [e]
      exact (slot k).trans (if_pos rfl)
    · rw [e]
      exact (slot j).trans (if_neg other)
    · rw [State.postTarget_of_log _ _ _ _ _ logs]
      refine ⟨_, appendEvent_getLast? _ _, rfl, rfl, ?_, rfl⟩
      rw [armFailedParam_eq k (Nat.zero_le 1), Nat.zero_mul, Nat.add_zero]
  · rw [State.traceExamined_uncorrectable arming armed complete two]
    obtain ⟨f, q, faulted, frozen, uncorrectable, whole⟩ := (s.endAccess .trace).traceFaulted_eq k a.index
    have damaged := (s.endAccess .trace).slot_traceFaulted k a.index
    have slot := ((s.endAccess .trace).traceFaulted k a.index).slot_traceFailed k
    have posted := State.posted_post (((s.endAccess .trace).traceFaulted k a.index).traceFailed k) .armFailed 0
      (armFailedParam k 1 a.index)
    obtain ⟨v, e⟩ := (((s.endAccess .trace).traceFaulted k a.index).traceFailed k).post_eq .armFailed 0
      (armFailedParam k 1 a.index)
    rw [armFailedParam_eq k le_rfl, Nat.one_mul] at posted e
    rw [armFailedParam_eq k le_rfl, Nat.one_mul]
    refine ⟨by rw [e]; rfl, by rw [e, faulted]; rfl, ?_, fun j other => ?_, posted, ?_⟩
    · rw [e]
      refine ((slot k).trans (if_pos rfl)).trans ?_
      rw [damaged, if_pos rfl]
      rfl
    · rw [e]
      exact ((slot j).trans (if_neg other)).trans ((damaged j).trans (if_neg other))
    · rw [e, faulted]
      exact ⟨frozen, uncorrectable, whole⟩

end Sys2Proof.Machine
end

section
/-! PROOF SUPPORT. O31: the turn of preparation that needs a chunk, and the end of a prepare read (R66, R72, R79, R80). -/

namespace Sys2Proof.Machine

open Sys2Proof

variable {s : State}

/-! ### When the Sequencer prepares (R80) -/

theorem State.mayPrepare_iff (s : State) : s.mayPrepare = true ↔
    s.run.state = .running ∧ s.queue.issued.length + s.queue.prepared.length < 64 ∧ s.seq.haltFlag = false := by
  simp only [State.mayPrepare, Bool.and_eq_true, decide_eq_true_eq, Bool.not_eq_true', and_assoc]
  rfl

/-- The chunk buffer holds the record at the prepare cursor exactly where it holds its chunk (R79). -/
theorem State.bufferedRecord_held {b : ChunkBuffer} (buffer : s.seq.buffer = some b) (here : b.chunk = s.prepareChunk) :
    s.bufferedRecord = some (b.records.getD (s.seq.cursor % 4) endOfDesign) := by
  simp only [State.bufferedRecord, buffer, if_pos here]

theorem State.bufferedRecord_none (other : ∀ b, s.seq.buffer = some b → b.chunk ≠ s.prepareChunk) :
    s.bufferedRecord = none := by
  unfold State.bufferedRecord
  split
  · next b buffer => exact if_neg (other b buffer)
  · rfl

/-- A turn that comes to a record the chunk buffer does not hold asks for its chunk and places nothing. -/
theorem State.prepareOne_asks (may : s.mayPrepare = true) (below : s.seq.cursor < s.designLength)
    (missing : s.bufferedRecord = none)
    (turn : s.seq.split = none ∧ s.seq.halt = none ∧ s.seq.approach = false ∧ s.atJoin = false ∨
      ∃ sp, s.seq.split = some sp ∧ sp.owner = .record) :
    s.prepareOne = s.askRead .sequencer ⟨s.prepareChunk, s.seq.cursor⟩ := by
  have asks : s.askPrepareRead = s.askRead .sequencer ⟨s.prepareChunk, s.seq.cursor⟩ := by
    simp only [State.askPrepareRead, State.prepareRead, if_pos below]
  rcases turn with ⟨noSplit, noHalt, noApproach, noJoin⟩ | ⟨sp, split, owner⟩
  · have choice : s.turnChoice = .record := by
      simp only [State.turnChoice, noSplit, noHalt, noApproach, noJoin, Bool.false_eq_true, if_false]
    simp only [State.prepareOne, may, if_true, choice, State.turnAtRecord, noJoin, Bool.false_eq_true, if_false, missing,
      asks]
  · have choice : s.turnChoice = .piece sp := by simp only [State.turnChoice, split]
    simp only [State.prepareOne, may, if_true, choice, State.turnAtSplit, owner, missing, asks]

/-- The Sequencer, first in precedence, is served at once where the path is free (R14). -/
theorem State.askRead_sequencer_free (x : StoreRead) (idle : s.arbiter.sequencer = .idle) (free : s.arbiter.holder = none) :
    s.askRead .sequencer x =
      s.withArbiter { s.arbiter with sequencer := .served x true, holder := some (.internal .sequencer) } := by
  have asking : s.arbiter.request .sequencer = .idle := idle
  have granted : ({ s.arbiter with sequencer := .waiting x } : Arbiter).grant =
      { s.arbiter with sequencer := .served x true, holder := some (.internal .sequencer) } := by
    simp only [Arbiter.grant, free]
    rfl
  simp only [State.askRead, asking]
  exact congrArg s.withArbiter granted

/-! ### The end of a prepare read (R72, R80) -/

/-- A run that leaves RUNNING while the Sequencer pauses loses its chunk buffer and nothing else. -/
theorem State.setRunState_leaves {v : RunState} (running : s.run.state = .running) (leaves : v ≠ .running)
    (pausing : s.arbiter.request .sequencer = .pausing) : s.setRunState v =
      (s.withRun { s.run with state := v }).withSeq { s.seq with buffer := none } := by
  rw [State.setRunState, if_pos ⟨running, leaves⟩]
  have still : ((s.withRun { s.run with state := v }).withSeq { s.seq with buffer := none }).arbiter.request .sequencer =
      .pausing := pausing
  simp only [State.stopPreparing, State.dropRead, State.withRun_seq, still]

/-- A stop requested in RUNNING while the Sequencer pauses (R66). -/
theorem State.requestStop_leaves (reason : StopReason) (running : s.run.state = .running)
    (pausing : s.arbiter.request .sequencer = .pausing) : s.requestStop reason =
      (s.withRun { s.run with state := .stopping, stopReason := reason }).withSeq { s.seq with buffer := none } := by
  simp only [State.requestStop, running, State.setRunState_leaves running (v := .stopping) nofun pausing]
  rfl

/-- An uncorrectable prepare read in RUNNING: the fault chunk, the fault recorded, the stop for MEMORY (R36, R72). -/
theorem State.prepareFault_eq (x : StoreRead) (running : s.run.state = .running)
    (pausing : s.arbiter.request .sequencer = .pausing) : ∃ f, s.prepareFault x =
      ((s.withFaultRecord f).withRun
        { s.run with state := .stopping, stopReason := .memory, faultChunk := some x.chunk }).withSeq
        { s.seq with buffer := none } ∧ f.frozen = true ∧ f.kinds.uncorrectable = true ∧
      (s.faultRecord.frozen = false → f.source = some .sequencer ∧ f.command = none ∧
        f.slot = some (s.run.armedSlot.getD 0) ∧ f.index = some (x.index - x.index % 4)) := by
  obtain ⟨f, e, frozen, uncorrectable, whole⟩ := (s.withRun { s.run with faultChunk := some x.chunk }).recordFault_taken
    .sequencer none (s.run.armedSlot.getD 0) (x.index - x.index % 4)
  refine ⟨f, ?_, frozen, uncorrectable, fun unfrozen => ?_⟩
  · simp only [State.prepareFault, e]
    exact State.requestStop_leaves .memory running pausing
  · rw [whole unfrozen]
    exact ⟨rfl, rfl, rfl, rfl⟩

section ends

variable {x : StoreRead} {u : State} (power : s.power ≠ .held)
  (holder : s.arbiter.holder = some (.internal .sequencer)) (served : s.arbiter.sequencer = .served x true)
include power holder served

/-- A prepare read that delivers records fills the chunk buffer with them. -/
theorem exec_prepareReadDone_records {rs : List StitchRecord} {flag : Bool}
    (read : s.readChunk x.chunk = (u, .records rs flag)) : exec .prepareReadDone s =
      .next ((u.endAccess .sequencer).withSeq { u.seq with buffer := some ⟨x.chunk, rs⟩ }) := by
  refine congrArg Host.Outcome.next ((State.onEvent_acts s _ power).trans ?_)
  simp only [State.prepareReadDone, holder, served, read, if_true]
  rfl

/-- One that finds its chunk uncorrectable faults. -/
theorem exec_prepareReadDone_uncorrectable (read : s.readChunk x.chunk = (u, .uncorrectable)) :
    exec .prepareReadDone s = .next ((u.endAccess .sequencer).prepareFault x) := by
  refine congrArg Host.Outcome.next ((State.onEvent_acts s _ power).trans ?_)
  simp only [State.prepareReadDone, holder, served, read, if_true]

end ends

/-- MEMORY_CORRECTED's parameter: the chunk number (R156). -/
theorem chunkParam_mod (n : Nat) : chunkParam n = BitVec.ofNat 32 (n % 2 ^ 16) := by
  rw [chunkParam, paramField, Nat.pow_zero, Nat.mul_one]

/-- Settles O31: the conditions of a turn, what it asks of the store, and the end of the read by its outcome. -/
theorem prepareReadFillsBufferOrStops : Obligations.PrepareReadFillsBufferOrStops := by
  refine ⟨State.mayPrepare_iff, fun s power may below => ⟨fun b buffer here => State.bufferedRecord_held buffer here,
    fun other turn => ?_⟩, fun s x power holder served complete => ⟨fun few => ?_, fun two running => ?_⟩⟩
  · have turned : exec .prepareTurn s = .next (s.askRead .sequencer ⟨s.prepareChunk, s.seq.cursor⟩) :=
      congrArg Host.Outcome.next ((State.onEvent_acts s _ power).trans
        (State.prepareOne_asks may below (State.bufferedRecord_none other) turn))
    rw [turned]
    refine ⟨fun busy => ?_, fun idle held => ?_, fun idle free => ?_⟩
    · rw [State.askRead_busy (s := s) (r := .sequencer) _ busy]
    · rw [State.askRead_held (s := s) (r := .sequencer) _ idle held]
      rfl
    · rw [State.askRead_sequencer_free _ idle free]
      rfl
  · by_cases clean : (s.chunk x.chunk).changed = []
    · refine ⟨_, exec_prepareReadDone_records power holder served (State.readChunk_of_none clean), rfl,
        State.request_endAccess s .sequencer, rfl, fun _ => ⟨rfl, rfl⟩, fun changed => absurd clean changed⟩
    · have one : (s.chunk x.chunk).changed.length = 1 := by
        have some := List.length_pos_iff.mpr clean
        omega
      have posted := State.posted_post (s.putChunk x.chunk { s.chunk x.chunk with changed := [] }) .memoryCorrected 0
        (chunkParam x.chunk)
      obtain ⟨v, e⟩ := (s.putChunk x.chunk { s.chunk x.chunk with changed := [] }).post_eq .memoryCorrected 0
        (chunkParam x.chunk)
      have read := State.readChunk_of_one complete one
      rw [e] at posted read
      rw [chunkParam_mod] at posted
      refine ⟨_, exec_prepareReadDone_records power holder served read, rfl, State.request_endAccess _ .sequencer, rfl,
        fun none => absurd none clean, fun _ => ⟨?_, posted⟩⟩
      exact (s.chunk_putChunk x.chunk x.chunk _).trans (if_pos rfl)
  · have read := State.readChunk_uncorrectable complete (Chunk.outcome_of_two two)
    obtain ⟨f, e, record⟩ := State.prepareFault_eq (s := s.endAccess .sequencer) x running (s.request_endAccess .sequencer)
    refine ⟨_, exec_prepareReadDone_uncorrectable power holder served read, ?_⟩
    rw [e]
    exact ⟨rfl, rfl, rfl, record⟩

end Sys2Proof.Machine
end

section
/-! PROOF SUPPORT. O20 and O21: targets rounded half toward plus infinity (R43), and the pieces of a split (R46). -/

namespace Sys2Proof.Machine

open Sys2Proof

/-! ### Targets (R42, R43) -/

theorem roundTarget_iff (v k : Int) :
    roundTarget v = k ↔ (2 * k - 1) * 2097152 ≤ v ∧ v < (2 * k + 1) * 2097152 := by
  unfold roundTarget
  omega

/-- At scale 1024 and angle 0 the first three stages multiply by 2^24, of which the fourth leaves 4. -/
theorem roundTarget_unit (x y : Int) :
    roundTarget (x * (1024 : Nat) * 16384 - y * (1024 : Nat) * 0) = 4 * x ∧
      roundTarget (x * (1024 : Nat) * 0 + y * (1024 : Nat) * 16384) = 4 * y := by
  constructor <;> rw [roundTarget_iff] <;> omega

/-- The target under scale 1024 and angle 0, the mirror turning the sign of the x delta. -/
theorem target_unit (mirror : Bool) (ox oy : Nat) (d : Point) : target (transformOf 1024 1024 0 mirror ox oy) d =
    ⟨ox + 4 * (if mirror then -d.x else d.x), oy + 4 * d.y⟩ := by
  obtain ⟨x, y⟩ := roundTarget_unit (if mirror then -d.x else d.x) d.y
  exact congrArg₂ Point.mk (congrArg ((ox : Int) + ·) x) (congrArg ((oy : Int) + ·) y)

theorem target_origin (t : Transform) : target t ⟨0, 0⟩ = ⟨t.ox, t.oy⟩ := by
  simp [target, roundTarget]

/-- Settles O20: the rounding as an equivalence, and the targets it gives. -/
theorem targetRoundsHalfTowardPlus : Obligations.TargetRoundsHalfTowardPlus := by
  refine ⟨roundTarget_iff, fun t d => rfl, fun ox oy d => target_unit false ox oy d, fun ox oy d => ?_, target_origin⟩
  rw [target_unit, if_pos rfl, Int.mul_neg, Int.sub_eq_add_neg]

/-! ### The number of pieces (R46) -/

theorem pieceCount_of_le {maxStep : Nat} {m : Point} (h : moveLength m ≤ maxStep) : pieceCount maxStep m = 1 := if_pos h

/-- A move longer than M is cut into ceil(length / M) pieces, the least number that suffices. -/
theorem pieceCount_of_lt {maxStep : Nat} {m : Point} (pos : 1 ≤ maxStep) (h : maxStep < moveLength m) :
    maxStep * (pieceCount maxStep m - 1) < moveLength m ∧ moveLength m ≤ maxStep * pieceCount maxStep m := by
  have count : pieceCount maxStep m = (moveLength m + maxStep - 1) / maxStep := if_neg (Nat.not_le.mpr h)
  have low := Nat.mul_div_le (moveLength m + maxStep - 1) maxStep
  have high := Nat.lt_mul_div_succ (moveLength m + maxStep - 1) pos
  rw [← count] at low high
  rw [Nat.mul_add] at high
  rw [Nat.mul_sub]
  omega

theorem one_le_pieceCount {maxStep : Nat} (pos : 1 ≤ maxStep) (m : Point) : 1 ≤ pieceCount maxStep m := by
  by_cases short : moveLength m ≤ maxStep
  · rw [pieceCount_of_le short]
  · obtain ⟨-, fits⟩ := pieceCount_of_lt pos (Nat.not_le.mp short)
    refine Nat.one_le_iff_ne_zero.mpr fun none => ?_
    rw [none] at fits
    omega

/-- The pieces of a move suffice on each axis. -/
theorem natAbs_le_pieces {maxStep : Nat} (pos : 1 ≤ maxStep) (m : Point) :
    m.x.natAbs ≤ maxStep * pieceCount maxStep m ∧ m.y.natAbs ≤ maxStep * pieceCount maxStep m := by
  have length : moveLength m ≤ maxStep * pieceCount maxStep m := by
    by_cases short : moveLength m ≤ maxStep
    · rw [pieceCount_of_le short, Nat.mul_one]
      exact short
    · exact (pieceCount_of_lt pos (Nat.not_le.mp short)).2
  exact ⟨(le_max_left _ _).trans length, (le_max_right _ _).trans length⟩

/-! ### The sub-targets on one axis (R46) -/

theorem subAxis_zero {n : Nat} (pos : 1 ≤ n) (m : Int) : subAxis m n 0 = 0 := by
  unfold subAxis
  exact Int.ediv_eq_zero_of_lt (by omega) (by omega)

theorem subAxis_last {n : Nat} (pos : 1 ≤ n) (m : Int) : subAxis m n n = m := by
  unfold subAxis
  rw [show 2 * (n : Int) * m + n = n + 2 * n * m by omega, Int.add_mul_ediv_left _ _ (by omega),
    Int.ediv_eq_zero_of_lt (by omega) (by omega), Int.zero_add]

/-- One piece more adds 2m to the dividend of a sub-target. -/
theorem subAxis_succ (m : Int) (n k : Nat) : subAxis m n (k + 1) = (2 * k * m + n + 2 * m) / (2 * n) := by
  unfold subAxis
  congr 1
  push_cast
  ring

theorem subAxis_mono {m : Int} {n : Nat} (pos : 1 ≤ n) (sign : 0 ≤ m) (k : Nat) : subAxis m n k ≤ subAxis m n (k + 1) := by
  rw [subAxis_succ]
  exact Int.ediv_le_ediv (by omega) (by omega)

theorem subAxis_anti {m : Int} {n : Nat} (pos : 1 ≤ n) (sign : m ≤ 0) (k : Nat) : subAxis m n (k + 1) ≤ subAxis m n k := by
  rw [subAxis_succ]
  exact Int.ediv_le_ediv (by omega) (by omega)

/-- Where n pieces of at most M suffice for m, the next sub-target is at most M away: the dividend rises by at most M times
the divisor. -/
theorem subAxis_step {m : Int} {n maxStep : Nat} (pos : 1 ≤ n) (fits : m.natAbs ≤ maxStep * n) (k : Nat) :
    (subAxis m n (k + 1) - subAxis m n k).natAbs ≤ maxStep := by
  have far : ∀ c : Int, subAxis m n k + c = (2 * k * m + n + c * (2 * n)) / (2 * n) := fun c =>
    (Int.add_mul_ediv_right _ _ (by omega)).symm
  have fits' : m ≤ maxStep * n ∧ -(maxStep * n : Int) ≤ m := by
    have : ((m.natAbs : Nat) : Int) ≤ ((maxStep * n : Nat) : Int) := Int.ofNat_le.mpr fits
    push_cast at this
    omega
  have above : subAxis m n (k + 1) ≤ subAxis m n k + maxStep := by
    rw [subAxis_succ, far]
    exact Int.ediv_le_ediv (by omega) (by linarith)
  have below : subAxis m n k + -maxStep ≤ subAxis m n (k + 1) := by
    rw [subAxis_succ, far]
    exact Int.ediv_le_ediv (by omega) (by linarith)
  omega

/-! ### The sub-targets of a split (R46) -/

/-- The start is the sub-target of index 0 by the same formula as the others. -/
theorem subTarget_eq {n : Nat} (pos : 1 ≤ n) (start goal : Point) (k : Nat) : subTarget start goal n k =
    ⟨start.x + subAxis (goal.x - start.x) n k, start.y + subAxis (goal.y - start.y) n k⟩ := by
  cases k with
  | zero => rw [subAxis_zero pos, subAxis_zero pos, Int.add_zero, Int.add_zero]; rfl
  | succ k => rfl

theorem subTarget_last {n : Nat} (pos : 1 ≤ n) (start goal : Point) : subTarget start goal n n = goal := by
  rw [subTarget_eq pos, subAxis_last pos, subAxis_last pos, add_sub_cancel, add_sub_cancel]

/-- A piece of a split on each axis is the step of its sub-target. -/
theorem subTarget_minus {n : Nat} (pos : 1 ≤ n) (start goal : Point) (j k : Nat) :
    (subTarget start goal n j).minus (subTarget start goal n k) =
      ⟨subAxis (goal.x - start.x) n j - subAxis (goal.x - start.x) n k,
        subAxis (goal.y - start.y) n j - subAxis (goal.y - start.y) n k⟩ := by
  rw [subTarget_eq pos, subTarget_eq pos, Point.minus, add_sub_add_left_eq_sub, add_sub_add_left_eq_sub]

/-- Each piece of the split of a move stays within ±M on each axis. -/
theorem subTarget_step {maxStep : Nat} (pos : 1 ≤ maxStep) (start goal : Point) (k : Nat) :
    let at_ := subTarget start goal (pieceCount maxStep (goal.minus start))
    ((at_ (k + 1)).minus (at_ k)).x.natAbs ≤ maxStep ∧ ((at_ (k + 1)).minus (at_ k)).y.natAbs ≤ maxStep := by
  have some := one_le_pieceCount pos (goal.minus start)
  obtain ⟨x, y⟩ := natAbs_le_pieces pos (goal.minus start)
  intro at_
  rw [subTarget_minus some]
  exact ⟨subAxis_step some x k, subAxis_step some y k⟩

/-- Settles O21: the number of pieces, the ends of the split, and each piece from the one before it. -/
theorem splitPiecesReachTarget : Obligations.SplitPiecesReachTarget := by
  intro start goal maxStep pos m n at_
  have some : 1 ≤ n := one_le_pieceCount pos m
  have eq : ∀ k, at_ k = ⟨start.x + subAxis m.x n k, start.y + subAxis m.y n k⟩ := subTarget_eq some start goal
  refine ⟨pieceCount_of_le, pieceCount_of_lt pos, rfl, subTarget_last some start goal, fun k first last => ?_⟩
  obtain ⟨k, rfl⟩ := Nat.exists_eq_add_of_le' first
  rw [Nat.add_sub_cancel]
  refine ⟨eq _, subTarget_step pos start goal k, ?_, ?_, ?_, ?_⟩ <;> intro sign <;> rw [eq, eq]
  · exact Int.add_le_add_left (subAxis_mono some sign k) _
  · exact Int.add_le_add_left (subAxis_anti some sign k) _
  · exact Int.add_le_add_left (subAxis_mono some sign k) _
  · exact Int.add_le_add_left (subAxis_anti some sign k) _

end Sys2Proof.Machine
end

section
/-! PROOF SUPPORT. O28, O29 and O30: what one turn of preparation places (R45 to R48, R69, R80). -/

namespace Sys2Proof.Machine

open Sys2Proof

variable {s : State}

/-! ### The turn by the first case of R80 that applies -/

theorem exec_prepareTurn (power : s.power ≠ .held) : exec .prepareTurn s = .next s.prepareOne :=
  congrArg Host.Outcome.next (State.onEvent_acts s _ power)

theorem State.prepareOne_waits (may : s.mayPrepare = false) : s.prepareOne = s := by
  simp only [State.prepareOne, may, Bool.false_eq_true, if_false]

section may

variable (may : s.mayPrepare = true)
include may

theorem State.prepareOne_split {sp : Split} (split : s.seq.split = some sp) : s.prepareOne = s.turnAtSplit sp := by
  simp only [State.prepareOne, may, if_true, State.turnChoice, split]

theorem State.prepareOne_halt {h : HaltInProgress} (noSplit : s.seq.split = none) (halt : s.seq.halt = some h) :
    s.prepareOne = s.placeHalt h.reason := by
  simp only [State.prepareOne, may, if_true, State.turnChoice, noSplit, halt]

theorem State.prepareOne_approach (noSplit : s.seq.split = none) (noHalt : s.seq.halt = none)
    (approach : s.seq.approach = true) : s.prepareOne = s.turnAtApproach := by
  simp only [State.prepareOne, may, if_true, State.turnChoice, noSplit, noHalt, approach]

theorem State.prepareOne_free (noSplit : s.seq.split = none) (noHalt : s.seq.halt = none)
    (noApproach : s.seq.approach = false) : s.prepareOne = s.turnAtRecord := by
  simp only [State.prepareOne, may, if_true, State.turnChoice, noSplit, noHalt, noApproach, Bool.false_eq_true, if_false]
  cases join : s.atJoin with
  | true => simp only [if_true, State.turnAtRecord, join]
  | false => simp only [Bool.false_eq_true, if_false]

end may

theorem State.turnAtSplit_record {sp : Split} {r : StitchRecord} (owner : sp.owner = .record)
    (here : s.bufferedRecord = some r) : s.turnAtSplit sp = s.placeRecordPiece sp r := by
  simp only [State.turnAtSplit, owner, here]

theorem State.turnAtSplit_approach {sp : Split} (owner : sp.owner = .approach) :
    s.turnAtSplit sp = s.placeApproachPiece sp := by
  simp only [State.turnAtSplit, owner]

theorem State.turnAtRecord_join (join : s.atJoin = true) : s.turnAtRecord = s.placeHalt .join := if_pos join

theorem State.turnAtRecord_record {r : StitchRecord} (noJoin : s.atJoin = false) (here : s.bufferedRecord = some r) :
    s.turnAtRecord = s.placeRecord r := by
  simp only [State.turnAtRecord, noJoin, Bool.false_eq_true, if_false, here]

/-! ### One piece of a split (R45 to R48) -/

/-- The state with the next piece of a split placed, as a STEP or a TRAVEL, and the rest of the Sequencer as `q` says. -/
def State.piecePlaced (s : State) (sp : Split) (step slow last : Bool) (design : Point) (role : TokenRole)
    (q : Sequencer) : State :=
  let t := s.placeMove (if step then .step else .travel) slow (subTarget sp.start sp.target sp.pieces (sp.prepared + 1))
    last design role
  t.withSeq { q with frame := t.seq.frame, ramp := t.seq.ramp }

/-- The token and the Sequencer of a piece placed, written out. -/
theorem State.piecePlaced_eq (s : State) (sp : Split) (step slow last : Bool) (design : Point) (role : TokenRole)
    (q : Sequencer) :
    let reached := subTarget sp.start sp.target sp.pieces (sp.prepared + 1)
    let move := reached.minus s.seq.frame
    s.piecePlaced sp step slow last design role q = { s with
      queue := { s.queue with
        nextSeq := (s.queue.nextSeq + 1) % 65536,
        prepared := s.queue.prepared ++ [{
          seq := s.queue.nextSeq, kind := if step then .step else .travel, reason := none, mx := move.x, my := move.y,
          ceiling := some (ceilingOf s.constants s.run.speed s.seq.ramp (moveLength move) slow),
          index := s.seq.cursor, frameAfter := reached, lastOfRecord := last, designAfter := design, role := role }] },
      seq := { q with frame := reached, ramp := if step then s.seq.ramp - 1 else s.seq.ramp } } := by
  cases step <;> rfl

/-- The rest of the Sequencer after a piece of an approach. -/
def Sequencer.afterApproach (q : Sequencer) (sp : Split) : Sequencer :=
  if sp.prepared + 1 = sp.pieces then { q with split := none, approach := false }
  else { q with split := some { sp with prepared := sp.prepared + 1 } }

/-- The rest of the Sequencer after a piece of a record. -/
def Sequencer.afterPiece (q : Sequencer) (sp : Split) (design : Point) : Sequencer :=
  if sp.prepared + 1 = sp.pieces then { q with split := none, design := design, cursor := q.cursor + 1 }
  else { q with split := some { sp with prepared := sp.prepared + 1 } }

theorem State.placeApproachPiece_eq (s : State) (sp : Split) : s.placeApproachPiece sp =
    s.piecePlaced sp false false false s.seq.design .approach (s.seq.afterApproach sp) := by
  unfold State.placeApproachPiece Sequencer.afterApproach
  dsimp only
  split <;> rfl

theorem State.placeRecordPiece_eq (s : State) (sp : Split) (r : StitchRecord) :
    let last := decide (sp.prepared + 1 = sp.pieces)
    let step := last && decide (r.kind = .stitch)
    s.placeRecordPiece sp r = s.piecePlaced sp step (r.slow && step) last (positionAfter s.seq.design r) .record
      (s.seq.afterPiece sp (positionAfter s.seq.design r)) := by
  unfold State.placeRecordPiece Sequencer.afterPiece State.piecePlaced
  by_cases last : sp.prepared + 1 = sp.pieces
  · by_cases stitch : r.kind = .stitch
    · simp only [last, stitch, decide_true, Bool.and_self, and_self, if_true]
      rfl
    · simp only [last, stitch, decide_true, decide_false, Bool.and_false, false_and, if_true, if_false,
        Bool.false_eq_true, reduceCtorEq]
      rfl
  · simp only [last, decide_false, Bool.false_and, Bool.and_false, Bool.false_eq_true, and_false, if_false, reduceCtorEq]
    rfl

/-! ### The record at the prepare cursor -/

/-- A record that moves places the first piece of its split. -/
theorem State.placeRecord_moves {r : StitchRecord} (moves : r.kind = .stitch ∨ r.kind = .jump) : s.placeRecord r =
    s.placeRecordPiece (s.splitTo (target s.run.transform (positionAfter s.seq.design r)) .record) r := by
  rcases moves with kind | kind <;> simp only [State.placeRecord, kind]

theorem positionAfter_moves {r : StitchRecord} (moves : r.kind = .stitch ∨ r.kind = .jump) (d : Point) :
    positionAfter d r = ⟨d.x + r.dx, d.y + r.dy⟩ := by
  rcases moves with kind | kind <;> simp only [positionAfter, kind] <;> rfl

/-- Settles O28: the first piece of the split of the record, which is its last where the split has one. -/
theorem turnPlacesFirstPiece : Obligations.TurnPlacesFirstPiece := by
  intro s r power may noSplit noHalt noApproach noJoin here moves design goal n reached move step
  have after : positionAfter s.seq.design r = design := positionAfter_moves moves _
  have turned : s.prepareOne = s.piecePlaced (s.splitTo goal .record) (decide (0 + 1 = n) && decide (r.kind = .stitch))
      (r.slow && (decide (0 + 1 = n) && decide (r.kind = .stitch))) (decide (0 + 1 = n)) design .record
      (s.seq.afterPiece (s.splitTo goal .record) design) := by
    rw [State.prepareOne_free may noSplit noHalt noApproach, State.turnAtRecord_record noJoin here,
      State.placeRecord_moves moves, State.placeRecordPiece_eq, after]
    rfl
  have one : (0 + 1 = n) ↔ (n = 1) := eq_comm
  have steps : (decide (0 + 1 = n) && decide (r.kind = .stitch)) = step := by
    rw [← Bool.decide_and, decide_eq_decide, one]
    exact and_comm
  rw [steps, decide_eq_decide.mpr one, State.piecePlaced_eq] at turned
  refine ⟨_, (exec_prepareTurn power).trans (congrArg Host.Outcome.next turned), rfl, rfl, ?_⟩
  have pieces : (s.splitTo goal .record).prepared + 1 = (s.splitTo goal .record).pieces ↔ n = 1 := one
  simp only [Sequencer.afterPiece, pieces]
  split <;> rfl

/-- Settles O29: the next piece of a record's split and of an approach, and the approach that is none. -/
theorem turnPlacesLaterPieceOrApproach : Obligations.TurnPlacesLaterPieceOrApproach := by
  intro s power may places approach
  have turn := exec_prepareTurn power
  have placed : ∀ (sp : Split) (step slow last : Bool) (design : Point) (role : TokenRole) (q : Sequencer),
      s.prepareOne = s.piecePlaced sp step slow last design role q → places sp step slow last design role q :=
    fun sp step slow last design role q turned =>
      turn.trans (congrArg Host.Outcome.next (turned.trans (s.piecePlaced_eq sp step slow last design role q)))
  refine ⟨fun sp r split owner here => ?_, fun sp split owner => ?_, fun noSplit noHalt owed => ?_⟩
  · exact placed _ _ _ _ _ _ _ (((State.prepareOne_split may split).trans (State.turnAtSplit_record owner here)).trans
      (s.placeRecordPiece_eq sp r))
  · exact placed _ _ _ _ _ _ _ (((State.prepareOne_split may split).trans (State.turnAtSplit_approach owner)).trans
      (s.placeApproachPiece_eq sp))
  · have turned := State.prepareOne_approach may noSplit noHalt owed
    refine ⟨fun far => placed _ _ _ _ _ _ _ ((turned.trans (if_neg far)).trans (s.placeApproachPiece_eq _)), fun zero => ?_⟩
    let t := s.withSeq { s.seq with approach := false }
    have free : t.prepareOne = t.turnAtRecord := State.prepareOne_free (s := t) may noSplit noHalt rfl
    have cleared : s.turnAtApproach = t.turnAtRecord := if_pos zero
    exact (turn.trans (congrArg Host.Outcome.next ((turned.trans cleared).trans free.symm))).trans
      (exec_prepareTurn (s := t) power).symm

/-- Settles O30: the one token of a TRIM, of a halt or of a join, by the case of the turn. -/
theorem turnPlacesTrimOrHalt : Obligations.TurnPlacesTrimOrHalt := by
  intro s power
  have turn := exec_prepareTurn power
  refine ⟨fun waits => turn.trans (congrArg Host.Outcome.next (State.prepareOne_waits waits)),
    fun may noSplit => ?_⟩
  refine ⟨fun h halt record => ?_, fun noHalt noApproach => ⟨fun join => ?_, fun r noJoin here => ?_⟩⟩
  · have placed : s.placeHalt h.reason = (s.placeToken (s.stillToken .halt (some h.reason) true .record)).withSeq
        { s.seq with haltFlag := true, halt := none, cursor := s.seq.cursor + 1 } := by
      simp only [State.placeHalt, ne_eq, record, not_false_eq_true, decide_true, if_true]
      rfl
    exact turn.trans (congrArg Host.Outcome.next ((State.prepareOne_halt may noSplit halt).trans placed))
  · exact turn.trans (congrArg Host.Outcome.next
      ((State.prepareOne_free may noSplit noHalt noApproach).trans (State.turnAtRecord_join join)))
  · have turned : exec .prepareTurn s = .next (s.placeRecord r) := turn.trans (congrArg Host.Outcome.next
      ((State.prepareOne_free may noSplit noHalt noApproach).trans (State.turnAtRecord_record noJoin here)))
    refine ⟨fun kind => ?_, fun kind => ?_, fun kind => ?_, fun kind trim => ?_, fun kind noTrim => ?_⟩ <;>
      refine turned.trans ?_
    · simp only [State.placeRecord, kind]; rfl
    · simp only [State.placeRecord, kind]; rfl
    · simp only [State.placeRecord, kind]; rfl
    · simp only [State.placeRecord, kind, trim, if_true]; rfl
    · simp only [State.placeRecord, kind, noTrim, Bool.false_eq_true, if_false]; rfl

end Sys2Proof.Machine
end

section
/-! PROOF SUPPORT. O22: the speed of a band, of a SLOW stitch and of a frame, the ceiling (R49 to R53), and SET_SPEED (R74). -/

namespace Sys2Proof.Machine

open Sys2Proof

/-! ### Speeds clamped and floored (R49 to R51) -/

theorem clamp_speed (n : Nat) : clamp 100 1200 n = if n < 100 then 100 else if 1200 < n then 1200 else n := by
  unfold clamp
  split_ifs <;> omega

theorem speedOf_eq (n : Nat) : speedOf n = (if n < 100 then 100 else if 1200 < n then 1200 else n) / 10 * 10 := by
  rw [speedOf, floorTen, clamp_speed]

/-- The two ends are multiples of 10 already. -/
theorem speedOf_cases (n : Nat) : speedOf n = if n < 100 then 100 else if 1200 < n then 1200 else n / 10 * 10 := by
  rw [speedOf_eq]
  split_ifs <;> rfl

/-- A speed clamped and floored is a multiple of 10 in 100..1200. -/
theorem speedOf_bounds (n : Nat) : 100 ≤ speedOf n ∧ speedOf n ≤ 1200 ∧ speedOf n % 10 = 0 := by
  rw [speedOf_eq]
  split_ifs <;> omega

/-- A speed of 100 or more is not raised. -/
theorem speedOf_le {n : Nat} (h : 100 ≤ n) : speedOf n ≤ n := by
  rw [speedOf_eq]
  split_ifs <;> omega

theorem slowSpeed_eq (band : Nat) : slowSpeed band = if band / 20 * 10 < 100 then 100 else band / 20 * 10 := by
  unfold slowSpeed
  split_ifs <;> omega

theorem min_eq_ite (a b : Nat) : min a b = if b < a then b else a := by
  rw [min_comm, min_def_lt]

/-! ### The band speed of a length (R49) -/

/-- The band speed is that of the first entry whose threshold is at or above the length. -/
theorem bandSpeed_first {bands : List (Nat × Nat)} {len i : Nat} (h : i < bands.length) (reaches : len ≤ bands[i].1)
    (before : ∀ j (g : j < bands.length), j < i → bands[j].1 < len) : bandSpeed bands len = bands[i].2 := by
  induction bands generalizing i with
  | nil => exact absurd h (Nat.not_lt_zero i)
  | cons b rest ih =>
    cases rest with
    | nil =>
      obtain rfl : i = 0 := Nat.lt_one_iff.mp h
      rfl
    | cons c rest =>
      cases i with
      | zero => exact if_pos reaches
      | succ i =>
        have passed : ¬ len ≤ b.1 := Nat.not_le.mpr (before 0 (Nat.zero_lt_succ _) (Nat.zero_lt_succ _))
        refine (if_neg passed).trans (ih (Nat.lt_of_succ_lt_succ h) reaches fun j g lt => ?_)
        exact before (j + 1) (Nat.succ_lt_succ g) (Nat.succ_lt_succ lt)

/-- The band speed of a length beyond every threshold is that of the last entry. -/
theorem bandSpeed_last {bands : List (Nat × Nat)} {len : Nat} (h : bands ≠ []) (beyond : ∀ b ∈ bands, b.1 < len) :
    bandSpeed bands len = (bands.getLast h).2 := by
  induction bands with
  | nil => exact absurd rfl h
  | cons b rest ih =>
    cases rest with
    | nil => rfl
    | cons c rest =>
      have passed : ¬ len ≤ b.1 := Nat.not_le.mpr (beyond b List.mem_cons_self)
      refine (if_neg passed).trans ((ih (List.cons_ne_nil c rest) fun x hx => beyond x (List.mem_cons_of_mem b hx)).trans ?_)
      rw [List.getLast_cons (List.cons_ne_nil c rest)]

/-- The band speed of a table is that of one of its entries. -/
theorem bandSpeed_mem {bands : List (Nat × Nat)} (h : bands ≠ []) (len : Nat) : ∃ b ∈ bands, bandSpeed bands len = b.2 := by
  induction bands with
  | nil => exact absurd rfl h
  | cons b rest ih =>
    cases rest with
    | nil => exact ⟨b, List.mem_cons_self, rfl⟩
    | cons c rest =>
      unfold bandSpeed
      split
      · exact ⟨b, List.mem_cons_self, rfl⟩
      · obtain ⟨x, mem, e⟩ := ih (List.cons_ne_nil c rest)
        exact ⟨x, List.mem_cons_of_mem b mem, e⟩

/-- The band speeds of constants in range are multiples of 10 in 100..1200. -/
theorem Constants.inRange.bandSpeed {c : Constants} (h : c.inRange) (len : Nat) :
    100 ≤ bandSpeed c.bands len ∧ bandSpeed c.bands len ≤ 1200 ∧ bandSpeed c.bands len % 10 = 0 := by
  obtain ⟨-, -, -, -, -, -, -, -, -, -, eight, -, speeds, -⟩ := h
  obtain ⟨b, mem, e⟩ := bandSpeed_mem (List.length_pos_iff.mp (by rw [eight]; decide)) len
  exact e ▸ speeds b mem

theorem Constants.inRange.startSpeed {c : Constants} (h : c.inRange) : 100 ≤ c.startSpeed := by
  obtain ⟨-, -, -, -, -, -, -, -, -, -, -, -, -, start, -⟩ := h
  exact start

theorem Constants.inRange.maxStep {c : Constants} (h : c.inRange) : 1 ≤ c.maxStep := by
  obtain ⟨-, -, -, -, -, -, -, -, step, -⟩ := h
  omega

/-! ### The ceiling (R53) -/

/-- The speed of R53 before it is clamped and floored. -/
def rampedSpeed (c : Constants) (runSpeed ramp len : Nat) (slow : Bool) : Nat :=
  let band := bandSpeed c.bands len
  let limited := min (if slow then slowSpeed band else band) runSpeed
  if ramp = 0 then limited else min limited c.startSpeed

theorem ceilingOf_eq (c : Constants) (runSpeed ramp len : Nat) (slow : Bool) :
    ceilingOf c runSpeed ramp len slow = speedOf (rampedSpeed c runSpeed ramp len slow) := rfl

/-- Every ceiling is a multiple of 10 in 100..1200. -/
theorem ceilingOf_bounds (c : Constants) (runSpeed ramp len : Nat) (slow : Bool) :
    100 ≤ ceilingOf c runSpeed ramp len slow ∧ ceilingOf c runSpeed ramp len slow ≤ 1200 ∧
      ceilingOf c runSpeed ramp len slow % 10 = 0 := speedOf_bounds _

/-- For constants in range and a run speed of 100 or more the speed before clamping lies between 100 and both of them. -/
theorem rampedSpeed_bounds {c : Constants} (h : c.inRange) {runSpeed : Nat} (fast : 100 ≤ runSpeed) (ramp len : Nat)
    (slow : Bool) : 100 ≤ rampedSpeed c runSpeed ramp len slow ∧
      rampedSpeed c runSpeed ramp len slow ≤ bandSpeed c.bands len ∧ rampedSpeed c runSpeed ramp len slow ≤ runSpeed := by
  obtain ⟨low, -⟩ := h.bandSpeed len
  have start := h.startSpeed
  simp only [rampedSpeed, slowSpeed]
  generalize bandSpeed c.bands len = band at low ⊢
  split_ifs <;> omega

/-- The limits of R53 as comparisons. -/
theorem rampedSpeed_eq (c : Constants) (runSpeed ramp len : Nat) (slow : Bool) :
    let band := bandSpeed c.bands len
    let slowed := if slow = true then (if band / 20 * 10 < 100 then 100 else band / 20 * 10) else band
    let limited := if runSpeed < slowed then runSpeed else slowed
    rampedSpeed c runSpeed ramp len slow = if 0 < ramp ∧ c.startSpeed < limited then c.startSpeed else limited := by
  simp only [rampedSpeed, slowSpeed_eq, min_eq_ite]
  rcases Nat.eq_zero_or_pos ramp with rfl | pos
  · simp only [if_true, Nat.lt_irrefl, false_and, if_false]
  · simp only [if_neg (Nat.ne_of_gt pos), pos, true_and]

/-! ### SET_SPEED (R51, R74) -/

/-- Settles O22: the ceiling by its steps and its bounds, the band of a length, and SET_SPEED. -/
theorem ceilingIsExact : Obligations.CeilingIsExact := by
  refine ⟨fun c speed ramp len slow => ⟨?_, fun h fast => ?_⟩,
    fun bands len => ⟨fun i => bandSpeed_first, bandSpeed_last⟩, fun s v takes => ?_⟩
  · rw [ceilingOf_eq, speedOf_eq, rampedSpeed_eq]
  · obtain ⟨low, high, tens⟩ := ceilingOf_bounds c speed ramp len slow
    obtain ⟨least, band, run⟩ := rampedSpeed_bounds h fast ramp len slow
    have floored := speedOf_le least
    exact ⟨low, high, tens, floored.trans band, floored.trans run⟩
  · obtain ⟨ran, answers⟩ := State.replied_onFrame
      (body := fun t => (t.withRun { t.run with speed := speedOf v }).reply .p .ok (beBytes 2 (speedOf v))) takes rfl rfl
    exact ⟨_, congrArg Host.Outcome.next ran, rfl, speedOf_cases v, answers⟩

end Sys2Proof.Machine
end

section
/-! PROOF SUPPORT. O23 and O54: ARM with the transform it sets up (R39 to R41, R60, R61), and SET_CONSTANTS (R171). -/

namespace Sys2Proof.Machine

open Sys2Proof

variable {s : State}

/-! ### The sine table (R40) -/

/-- An entry of the sine table, read from the table of integers. -/
theorem sineEntry_eq (d : Nat) : sineEntry d = (sineTable.map fun n : Nat => (n : Int)).getD d 0 :=
  (List.getD_map sineTable 0 fun n : Nat => (n : Int)).symm

/-- The transform of an ARM frame, its sine and cosine by quadrant from a table that holds S(0) to S(90). -/
theorem transformOf_eq {S : Nat → Int} (entry : ∀ d, sineEntry d = S d) (sx sy angle : Nat) (mirror : Bool) (ox oy : Nat) :
    let d := angle % 360
    transformOf sx sy angle mirror ox oy =
      { sx := Nat.max 512 (Nat.min 2048 sx), sy := Nat.max 512 (Nat.min 2048 sy), angle := d, mirror := mirror,
        ox := ox, oy := oy,
        sine := if d ≤ 90 then S d else if d ≤ 180 then S (180 - d) else if d ≤ 270 then -S (d - 180) else -S (360 - d),
        cosine := if d ≤ 90 then S (90 - d) else if d ≤ 180 then -S (d - 90)
          else if d ≤ 270 then -S (270 - d) else S (d - 270) } := by
  simp only [← entry]
  rfl

/-! ### ARM (R60, R61) -/

/-- R60's test of the colour table, entry by entry. -/
theorem State.coloursComplete_eq (s : State) (r : SlotRecord) : s.coloursComplete r =
    !((List.range (r.colourCount + 1)).any fun b => (r.colour b).all fun e => decide (s.constants.needles < e.needle)) := by
  rw [State.coloursComplete, List.not_any_eq_all_not]
  congr 1
  funext b
  cases r.colour b with
  | none => rfl
  | some e => simp only [Option.all_some, ← decide_not, Nat.not_lt]

theorem inField_eq_false (c : Constants) (x y : Nat) :
    inField c ⟨x, y⟩ = false ↔ ¬ (c.xmin ≤ x ∧ x ≤ c.xmax ∧ c.ymin ≤ y ∧ y ≤ c.ymax) := by
  simp only [inField, decide_eq_false_iff_not, Int.ofNat_le]

/-- What ARM leaves (R61, R92): the slot armed, the run record, the Sequencer, the Move Queue and the trace set up, and the
requests of the Sequencer and of the trace at the arbiter. -/
theorem State.takeArm_eq (s : State) (slot : Nat) (tr : Transform) (now : Point) : ∃ a, s.takeArm slot tr now =
    { s.putSlot slot { s.slot slot with armed := true } with
      arbiter := a, trace := some ⟨0, ⟨0, 0⟩⟩, seq := armedSequencer now, queue := MoveQueue.reset,
      run := { s.run with
        state := .arming, armedSlot := some slot, transform := tr, pass := .main, cursor := 0, design := ⟨0, 0⟩,
        frame := now, colourBlock := 0, stopReason := .none, outstanding := false, faultChunk := none } } := by
  unfold State.takeArm
  extract_lets r ran a b trace c
  obtain ⟨dropped, drops⟩ := (a.withSeq (armedSequencer now)).dropRead_eq .sequencer
  obtain ⟨asked, asks⟩ := c.askRead_eq .trace (c.traceRead trace)
  have reached : c = (((a.withSeq (armedSequencer now)).withArbiter dropped).withQueue MoveQueue.reset).withTrace
      (some trace) := by rw [← drops]
  exact ⟨asked, by rw [asks, reached]; rfl⟩

/-- ARM by its tests in order, its colour and field tests as R60 words them. -/
theorem State.armRun_eq (s : State) (k sx sy angle : Nat) (mirror : Bool) (ox oy nowX nowY : Nat) :
    s.armRun k sx sy angle mirror ox oy nowX nowY =
      if 15 < k then s.refuse .p .range
      else if s.run.state ≠ .idle then s.refuse .p .state
      else if s.ring.state = .enumerating then s.refuse .p .busy
      else if (s.slot k).state ≠ .ready then s.refuse .p .state
      else if ((List.range ((s.slot k).colourCount + 1)).any fun b =>
          ((s.slot k).colour b).all fun e => decide (s.constants.needles < e.needle)) = true then s.refuse .p .incomplete
      else if ¬ (s.constants.xmin ≤ ox ∧ ox ≤ s.constants.xmax ∧ s.constants.ymin ≤ oy ∧ oy ≤ s.constants.ymax) then
        s.refuse .p .range
      else if ¬ (s.constants.xmin ≤ nowX ∧ nowX ≤ s.constants.xmax ∧ s.constants.ymin ≤ nowY ∧ nowY ≤ s.constants.ymax) then
        s.refuse .p .range
      else (s.takeArm k (transformOf sx sy angle mirror ox oy) ⟨nowX, nowY⟩).reply .p .accepted [] := by
  simp only [State.armRun, State.coloursComplete_eq, Bool.not_eq_false', inField_eq_false]

/-- Settles O23: the tests one by one, then what ARM sets up. -/
theorem armSetsUpRun : Obligations.ArmSetsUpRun := by
  unfold Obligations.ArmSetsUpRun
  intro table S s k sx sy angle mirror ox oy nowX nowY takes
  refine ⟨_, rfl, ?_⟩
  refine State.refused_or takes (State.armRun_eq s.framed k sx sy angle mirror ox oy nowX nowY) fun _ tested => ?_
  refine State.refused_or takes tested fun _ tested => State.refused_or takes tested fun _ tested => ?_
  refine State.refused_or takes tested fun _ tested => State.refused_or takes tested fun _ tested => ?_
  refine State.refused_or takes tested fun _ tested => State.refused_or takes tested fun _ taken => ?_
  obtain ⟨a, armed⟩ := s.framed.takeArm_eq k (transformOf sx sy angle mirror ox oy) ⟨nowX, nowY⟩
  obtain ⟨ran, answers⟩ := State.replied_onFrame (body := fun t => t.armRun k sx sy angle mirror ox oy nowX nowY) takes
    (taken.trans (congrArg (State.reply · .p .accepted []) armed)) rfl
  rw [ran]
  have slot := s.framed.slot_putSlot k
  have transform := transformOf_eq (S := S) sineEntry_eq sx sy angle mirror ox oy
  refine ⟨answers, rfl, (slot k _).trans (if_pos rfl), fun j other => (slot j _).trans (if_neg other), ?_, rfl, rfl, rfl⟩
  rw [← transform]
  rfl

/-! ### SET_CONSTANTS (R49, R171) -/

/-- Thresholds each below the next rise throughout. -/
theorem ascending_iff (bands : List (Nat × Nat)) : ascending bands = true ↔ bands.Pairwise (fun a b => a.1 < b.1) := by
  have : IsTrans (Nat × Nat) fun a b => a.1 < b.1 := ⟨fun _ _ _ => Nat.lt_trans⟩
  rw [← List.isChain_iff_pairwise]
  induction bands with
  | nil => exact iff_of_true rfl .nil
  | cons a rest ih =>
    cases rest with
    | nil => exact iff_of_true rfl (.singleton a)
    | cons b rest =>
      rw [ascending, Bool.and_eq_true, decide_eq_true_eq, List.isChain_cons_cons]
      exact and_congr_right' ih

/-- The tests of R171 in the order of the record's fields. -/
theorem validConstants_iff (c : ConstantsFrame) : validConstants c = true ↔
    1 ≤ c.nHeads ∧ c.nHeads ≤ 24 ∧ 1 ≤ c.needles ∧ c.needles ≤ 15 ∧ c.xmin < c.xmax ∧ c.xmax ≤ 60000 ∧
      c.ymin < c.ymax ∧ c.ymax ≤ 60000 ∧ 40 ≤ c.maxStep ∧ c.maxStep ≤ 800 ∧ c.bands.length = 8 ∧
      c.bands.Pairwise (fun a b => a.1 < b.1) ∧ 100 ≤ c.startSpeed ∧ c.startSpeed ≤ 1200 ∧ c.ramp ≤ 15 ∧
      1 ≤ c.motionLimit ∧ c.motionLimit ≤ 15 ∧ 1 ≤ c.tensionLimit ∧ c.tensionLimit ≤ 15 ∧ c.backstep ≤ 255 ∧
      c.faultPolicy ≤ 1 ∧ c.trimAtChange ≤ 1 ∧ 100 ≤ c.changeTime ∧ c.changeTime ≤ 2000 := by
  simp only [validConstants, Bool.and_eq_true, decide_eq_true_eq, ascending_iff]
  tauto

/-- Counts zeroed at the heads of a list: the heads alone change, and those of the list in their two counts. -/
theorem State.foldl_zeroCounts (s : State) (l : List Nat) :
    ∃ z, l.foldl (fun t h => t.putHead h { t.head h with noMotion := 0, tension := 0 }) s = s.withHeads z ∧
      ∀ h, (s.withHeads z).head h = if h ∈ l then { s.head h with noMotion := 0, tension := 0 } else s.head h := by
  induction l generalizing s with
  | nil => exact ⟨s.heads, rfl, fun h => (if_neg List.not_mem_nil).symm⟩
  | cons g rest ih =>
    obtain ⟨z, frame, heads⟩ := ih (s.putHead g { s.head g with noMotion := 0, tension := 0 })
    refine ⟨z, frame, fun h => (heads h).trans ?_⟩
    rw [State.head_putHead]
    by_cases same : h = g <;> by_cases later : h ∈ rest <;> simp [same, later]

theorem State.zeroCounts_eq (s : State) : ∃ z, s.zeroCounts = s.withHeads z ∧
    ∀ h, (s.withHeads z).head h = if h ∈ headNumbers then { s.head h with noMotion := 0, tension := 0 } else s.head h :=
  s.foldl_zeroCounts headNumbers

/-- The record that a frame writes, its band speeds clamped and floored entry by entry. -/
theorem constantsOf_eq (c : ConstantsFrame) : constantsOf c =
    { nHeads := c.nHeads, needles := c.needles, xmin := c.xmin, xmax := c.xmax, ymin := c.ymin, ymax := c.ymax,
      maxStep := c.maxStep, startSpeed := c.startSpeed, ramp := c.ramp, motionLimit := c.motionLimit,
      tensionLimit := c.tensionLimit, backstep := c.backstep, changeTime := c.changeTime,
      faultPolicy := if c.faultPolicy = 1 then .stopAll else .continueRun, trimAtChange := decide (c.trimAtChange = 1),
      bands := c.bands.map fun b =>
        (b.1, if b.2 < 100 then 100 else if 1200 < b.2 then 1200 else b.2 / 10 * 10) } := by
  simp only [constantsOf, speedOf_cases]

/-- Settles O54: the tests one by one, then the record written and the counts of every head zeroed. -/
theorem setConstantsWritesWholeRecord : Obligations.SetConstantsWritesWholeRecord := by
  refine fun s c takes => ⟨_, rfl, ?_⟩
  intro valid
  refine State.refused_or takes (body := fun t => t.setConstants c) rfl fun _ tested => ?_
  refine State.refused_or takes tested fun _ tested => ⟨fun bad => ?_, fun good => ?_⟩
  · have invalid : validConstants c = false := Bool.eq_false_iff.mpr fun h => bad ((validConstants_iff c).mp h)
    exact State.refused_onFrame takes (tested.trans (if_pos invalid))
  · have passed : ¬ validConstants c = false := by
      rw [Bool.not_eq_false]
      exact (validConstants_iff c).mpr good
    obtain ⟨z, zeroed, head⟩ := (s.framed.withConstants (constantsOf c)).zeroCounts_eq
    have taken := (tested.trans (if_neg passed)).trans
      (congrArg (State.reply · .p .ok (constantsBytes (constantsOf c))) zeroed)
    obtain ⟨ran, answers⟩ := State.replied_onFrame (body := fun t => t.setConstants c) takes taken rfl
    rw [ran]
    exact ⟨answers, rfl, constantsOf_eq c, fun h mem => (head h).trans (if_pos mem),
      fun h other => (head h).trans (if_neg other)⟩

end Sys2Proof.Machine
end

section
/-! PROOF SUPPORT. The feed of the motion processor: the constants, the tokens of the Move Queue, the split in progress and the
prepared frame position, which the law of the tokens speaks of; and the operations that leave it alone. -/

namespace Sys2Proof.Machine

open Sys2Proof

variable (s : State)

/-! ### The feed -/

/-- The fields that the law of the tokens speaks of, but for the run state (R46, R53, R76). -/
def State.feed (s : State) : Constants × List Token × List Token × Option Split × Point :=
  (s.constants, s.queue.issued, s.queue.prepared, s.seq.split, s.seq.frame)

@[simp] theorem State.feed_withPower (v : Power) : (s.withPower v).feed = s.feed := rfl
@[simp] theorem State.feed_withPortP (v : PortState) : (s.withPortP v).feed = s.feed := rfl
@[simp] theorem State.feed_withPortM (v : PortState) : (s.withPortM v).feed = s.feed := rfl
@[simp] theorem State.feed_withStore (v : Table Chunk) : (s.withStore v).feed = s.feed := rfl
@[simp] theorem State.feed_withPool (v : List Nat) : (s.withPool v).feed = s.feed := rfl
@[simp] theorem State.feed_withSlots (v : Table SlotRecord) : (s.withSlots v).feed = s.feed := rfl
@[simp] theorem State.feed_withFaultRecord (v : AccessFault) : (s.withFaultRecord v).feed = s.feed := rfl
@[simp] theorem State.feed_withArbiter (v : Arbiter) : (s.withArbiter v).feed = s.feed := rfl
@[simp] theorem State.feed_withScan (v : Option CloseScan) : (s.withScan v).feed = s.feed := rfl
@[simp] theorem State.feed_withTrace (v : Option ArmTrace) : (s.withTrace v).feed = s.feed := rfl
@[simp] theorem State.feed_withWalk (v : Option WalkRecord) : (s.withWalk v).feed = s.feed := rfl
@[simp] theorem State.feed_withRun (v : RunRecord) : (s.withRun v).feed = s.feed := rfl
@[simp] theorem State.feed_withChange (v : Option ChangeRecord) : (s.withChange v).feed = s.feed := rfl
@[simp] theorem State.feed_withRing (v : HeadRing) : (s.withRing v).feed = s.feed := rfl
@[simp] theorem State.feed_withRepairs (v : List RepairEntry) : (s.withRepairs v).feed = s.feed := rfl
@[simp] theorem State.feed_withEvents (v : List EventEntry) : (s.withEvents v).feed = s.feed := rfl
@[simp] theorem State.feed_withTimeTag (v : TimeTag) : (s.withTimeTag v).feed = s.feed := rfl
@[simp] theorem State.feed_withPending (v : List Instr) : (s.withPending v).feed = s.feed := rfl
@[simp] theorem State.feed_putChunk (n : Nat) (c : Chunk) : (s.putChunk n c).feed = s.feed := rfl
@[simp] theorem State.feed_putSlot (k : Nat) (r : SlotRecord) : (s.putSlot k r).feed = s.feed := rfl
@[simp] theorem State.feed_putHead (h : Nat) (r : HeadRecord) : (s.putHead h r).feed = s.feed := rfl
@[simp] theorem State.feed_putInhibitRow (h : Nat) (row : BitVec 16) : (s.putInhibitRow h row).feed = s.feed := rfl
@[simp] theorem State.feed_putRingRecord (h : Nat) (r : RingRecord) : (s.putRingRecord h r).feed = s.feed := rfl
@[simp] theorem State.feed_putClass (k : Nat) (f : ClassFlags) : (s.putClass k f).feed = s.feed := rfl
@[simp] theorem State.feed_setStopReason (r : StopReason) : (s.setStopReason r).feed = s.feed := rfl
@[simp] theorem State.feed_setJoin (h : Nat) (j : Option Nat) : (s.setJoin h j).feed = s.feed := rfl
@[simp] theorem State.feed_endAccess (r : Requester) : (s.endAccess r).feed = s.feed := rfl
@[simp] theorem State.feed_fly (t : Transaction) : (s.fly t).feed = s.feed := rfl
@[simp] theorem State.feed_setEnumeration (e : Enumeration) : (s.setEnumeration e).feed = s.feed := rfl
@[simp] theorem State.feed_pauseChange : s.pauseChange.feed = s.feed := rfl
@[simp] theorem State.feed_flyUnicast (r : RingRequest) (roundRobin : Bool) : (s.flyUnicast r roundRobin).feed = s.feed := rfl
@[simp] theorem State.feed_flySelection (r : RingRequest) : (s.flySelection r).feed = s.feed := rfl
@[simp] theorem State.feed_markSelectionSent : s.markSelectionSent.feed = s.feed := rfl
@[simp] theorem State.feed_reportNeedle (h : Nat) (w : RingWord) : (s.reportNeedle h w).feed = s.feed := rfl

variable {s} in
/-- A Sequencer with the same split and the same prepared frame position. -/
theorem State.feed_withSeq {v : Sequencer} (split : v.split = s.seq.split) (frame : v.frame = s.seq.frame) :
    (s.withSeq v).feed = s.feed := by
  simp [State.feed, split, frame]

variable {s} in
/-- A Move Queue with the same tokens. -/
theorem State.feed_withQueue {v : MoveQueue} (issued : v.issued = s.queue.issued) (prepared : v.prepared = s.queue.prepared) :
    (s.withQueue v).feed = s.feed := by
  simp [State.feed, issued, prepared]

/-- The feed field by field. -/
theorem State.feed_iff {s t : State} : t.feed = s.feed ↔ t.constants = s.constants ∧ t.queue.issued = s.queue.issued ∧
    t.queue.prepared = s.queue.prepared ∧ t.seq.split = s.seq.split ∧ t.seq.frame = s.seq.frame := by
  simp [State.feed]

/-- What leaves the feed alone at each element of a list leaves it alone over the whole of it. -/
theorem State.feed_foldl {α : Type} {f : State → α → State} (h : ∀ t x, (f t x).feed = t.feed) (l : List α) :
    (l.foldl f s).feed = s.feed := by
  induction l generalizing s with
  | nil => rfl
  | cons x rest ih => exact (ih (f s x)).trans (h s x)

/-! ### Ports, events, the arbiter and the run state -/

@[simp] theorem State.feed_putPort (port : Port) (v : PortState) : (s.putPort port v).feed = s.feed := by
  cases port <;> rfl

@[simp] theorem State.feed_reply (port : Port) (code : ReplyCode) (payload : List Byte) :
    (s.reply port code payload).feed = s.feed := s.feed_putPort _ _

@[simp] theorem State.feed_refuse (port : Port) (code : ReplyCode) : (s.refuse port code).feed = s.feed := s.feed_reply _ _ _

@[simp] theorem State.feed_reportReply (n : Nat) : (s.reportReply n).feed = s.feed := s.feed_reply _ _ _

@[simp] theorem State.feed_closeFrame (port : Port) : (s.closeFrame port).feed = s.feed := s.feed_putPort _ _

@[simp] theorem State.feed_loseReply (port : Port) : (s.loseReply port).feed = s.feed := by
  obtain ⟨a, e⟩ := s.loseReply_eq port
  rw [e]; rfl

@[simp] theorem State.feed_postTarget (k : EventKind) (head : Nat) (param : BitVec 32) (target : Option Point) :
    (s.postTarget k head param target).feed = s.feed := by
  obtain ⟨q, e⟩ := s.postTarget_eq k head param target
  rw [e]; rfl

@[simp] theorem State.feed_post (k : EventKind) (head : Nat) (param : BitVec 32) : (s.post k head param).feed = s.feed :=
  s.feed_postTarget _ _ _ _

@[simp] theorem State.feed_postStopped : s.postStopped.feed = s.feed := s.feed_post _ _ _
@[simp] theorem State.feed_postRepairDone (n : Nat) : (s.postRepairDone n).feed = s.feed := s.feed_post _ _ _
@[simp] theorem State.feed_recoveryMiss (h : Nat) : (s.recoveryMiss h).feed = s.feed := s.feed_post _ _ _

@[simp] theorem State.feed_askRead (r : Requester) (x : StoreRead) : (s.askRead r x).feed = s.feed := by
  obtain ⟨a, e⟩ := s.askRead_eq r x
  rw [e]; rfl

@[simp] theorem State.feed_dropRead (r : Requester) : (s.dropRead r).feed = s.feed := by
  obtain ⟨a, e⟩ := s.dropRead_eq r
  rw [e]; rfl

@[simp] theorem State.feed_endPortAccess : s.endPortAccess.feed = s.feed := by
  unfold State.endPortAccess
  split <;> rfl

theorem State.feed_endPause (r : Requester) : (s.endPause r).feed = s.feed := by
  rw [State.endPause_eq]; rfl

theorem State.feed_chipSelect (port : Port) (bytes : Nat) (early : Bool) : (s.chipSelect port bytes early).feed = s.feed := by
  simp only [State.chipSelect]
  repeat' split
  all_goals simp

@[simp] theorem State.feed_recordFault (source : FaultSource) (command : Option FaultCommand) (slot index : Nat)
    (kinds : FaultKinds) : (s.recordFault source command slot index kinds).feed = s.feed := by
  obtain ⟨f, e, -⟩ := s.recordFault_eq source command slot index kinds
  rw [e]; rfl

@[simp] theorem State.feed_damageSlot (k : Nat) : (s.damageSlot k).feed = s.feed := by
  obtain ⟨q, e⟩ := s.damageSlot_eq k
  rw [e]; rfl

@[simp] theorem State.feed_releaseSlot : s.releaseSlot.feed = s.feed := by
  obtain ⟨q, e⟩ := s.releaseSlot_eq
  rw [e]; rfl

@[simp] theorem State.feed_setRunState (v : RunState) : (s.setRunState v).feed = s.feed := by
  obtain ⟨b, a, e⟩ := s.setRunState_eq v
  rw [e]; rfl

@[simp] theorem State.feed_requestStop (reason : StopReason) : (s.requestStop reason).feed = s.feed := by
  obtain ⟨st, r, c, b, a, e⟩ := s.requestStop_eq reason
  rw [e]; rfl

/-! ### Heads, the ring queue and the Repair List -/

/-- What changes the heads, the request queue and the Repair List alone leaves the feed. -/
theorem State.OnlyHeads.feed {t : State} (h : s.OnlyHeads t) : t.feed = s.feed := by
  have e : t.blankHeads.feed = s.blankHeads.feed := congrArg State.feed h
  exact e

@[simp] theorem State.feed_offer (r : RingRequest) : (s.offer r).feed = s.feed := by
  obtain ⟨q, e⟩ := s.offer_eq r
  rw [e]; rfl

@[simp] theorem State.feed_setRepairs (l : List RepairEntry) : (s.setRepairs l).feed = s.feed :=
  State.OnlyHeads.feed s (.setRepairs s l)

@[simp] theorem State.feed_setHeadState (h : Nat) (st : HeadState) (cause : Option HeadCause) :
    (s.setHeadState h st cause).feed = s.feed := State.OnlyHeads.feed s (.setHeadState s h st cause)

@[simp] theorem State.feed_changeHead (h : Nat) (st : HeadState) (cause : Option HeadCause) :
    (s.changeHead h st cause).feed = s.feed := State.OnlyHeads.feed s (.changeHead s h st cause)

@[simp] theorem State.feed_skipEntry (h : Nat) : (s.skipEntry h).1.feed = s.feed := State.OnlyHeads.feed s (.skipEntry s h)

@[simp] theorem State.feed_placeHead (h : Nat) : (s.placeHead h).feed = s.feed := State.OnlyHeads.feed s (.placeHead s h)

@[simp] theorem State.feed_returnHead (h : Nat) : (s.returnHead h).feed = s.feed := State.OnlyHeads.feed s (.returnHead s h)

@[simp] theorem State.feed_inhibitCheck (hs : List Nat) : (s.inhibitCheck hs).1.feed = s.feed :=
  State.OnlyHeads.feed s (.inhibitCheck s hs)

@[simp] theorem State.feed_skipOrPost (h : Nat) : (s.skipOrPost h).feed = s.feed := by
  have g := s.feed_skipEntry h
  unfold State.skipOrPost
  split <;> (next e => rw [e] at g; simpa using g)

@[simp] theorem State.feed_markEntries (h c : Nat) : (s.markEntries h c).feed = s.feed := s.feed_setRepairs _

@[simp] theorem State.feed_dropFault (h : Nat) : (s.dropFault h).feed = s.feed := s.feed_setRepairs _

@[simp] theorem State.feed_placeAll : s.placeAll.feed = s.feed := s.feed_foldl (fun t h => by split <;> simp) _

@[simp] theorem State.feed_returnHeads : s.returnHeads.feed = s.feed := s.feed_foldl (fun t h => by split <;> simp) _

@[simp] theorem State.feed_addStitches (n : Nat) : (s.addStitches n).feed = s.feed :=
  s.feed_foldl (fun t h => by split <;> simp) _

@[simp] theorem State.feed_joinHeads : s.joinHeads.feed = s.feed := by
  refine s.feed_foldl (fun t h => ?_) _
  unfold State.joinHead
  split
  · split <;> simp
  · rfl

@[simp] theorem State.feed_faultAction (h : Nat) (cause : ThreadFault) : (s.faultAction h cause).feed = s.feed := by
  obtain ⟨r, q, l, o, v, e, -⟩ := s.faultAction_eq h cause
  rw [e]; simp

@[simp] theorem State.feed_loseHead (h : Nat) (c : LossCause) : (s.loseHead h c).feed = s.feed := by
  obtain ⟨r, ring, l, o, x, v, e, -⟩ := s.loseHead_eq h c
  rw [e]; simp

/-! ### The store and the slots (chapters 1 and 2) -/

@[simp] theorem State.feed_readChunk (n : Nat) : (s.readChunk n).1.feed = s.feed := by
  obtain ⟨st, v, e, -⟩ := s.readChunk_eq n
  rw [e]; rfl

theorem State.feed_storeBitChange (n : Nat) (bits : List Nat) : (s.storeBitChange n bits).feed = s.feed := by
  unfold State.storeBitChange
  split <;> rfl

theorem State.feed_carryOut (a : PortAccess) : (s.carryOut a).1.feed = s.feed := by
  unfold State.carryOut
  split
  · next rs _ =>
    split
    · rfl
    · have written : (s.writeRequest a.index rs a.spans).1.feed = s.feed := by
        obtain ⟨st, v, e⟩ := s.writeRequest_eq a.index rs a.spans
        rw [e]; rfl
      split <;> (next e => rw [e] at written; simpa using written)
  · have read : (s.readSpans a.spans).1.feed = s.feed := by
      obtain ⟨st, v, e⟩ := s.readSpans_eq a.spans
      rw [e]; rfl
    split <;> (next e => rw [e] at read; simpa using read)

@[simp] theorem State.feed_askPortAccess (slot index count : Nat) (write : Option (List StitchRecord)) :
    (s.askPortAccess slot index count write).feed = s.feed := by
  have settled : s.settlePortAccess.feed = s.feed := by
    unfold State.settlePortAccess
    split
    · next a _ =>
      have done := s.feed_carryOut a
      split
      next e => rw [e] at done; simpa using done
    · rfl
  simp [State.askPortAccess, settled]

theorem State.feed_writeRecords (slot index : Nat) (records : List WireRecord) :
    (s.writeRecords slot index records).feed = s.feed := by
  simp only [State.writeRecords]
  repeat' split
  all_goals simp

theorem State.feed_readRecords (slot index count : Nat) : (s.readRecords slot index count).feed = s.feed := by
  simp only [State.readRecords]
  repeat' split
  all_goals simp

theorem State.feed_portAccessDone : s.portAccessDone.feed = s.feed := by
  unfold State.portAccessDone
  split
  · next a _ _ =>
    have done := s.feed_carryOut a
    split
    next e =>
      rw [e] at done
      dsimp only
      split <;> simpa using done
  · rfl

theorem State.feed_setColours (slot first : Nat) (entries : List ColourEntry) :
    (s.setColours slot first entries).feed = s.feed := by
  simp only [State.setColours]
  repeat' split
  all_goals simp

theorem State.feed_keepSlot (slot : Nat) (on : Bool) : (s.keepSlot slot on).feed = s.feed := by
  unfold State.keepSlot
  repeat' split
  all_goals simp

/-! ### Completions and the end of a repair pass (chapters 5, 9 and 10) -/

@[simp] theorem State.feed_finishRepair : s.finishRepair.feed = s.feed := by simp [State.finishRepair]

@[simp] theorem State.feed_checkPassEmptied : s.checkPassEmptied.feed = s.feed := by
  unfold State.checkPassEmptied State.passEmptied
  repeat' split
  all_goals simp

@[simp] theorem State.feed_passUpdate : s.passUpdate.feed = s.feed := by
  refine (State.feed_checkPassEmptied _).trans ((State.feed_foldl _ (fun t h => ?_) _).trans (by simp))
  split <;> simp

theorem State.feed_repairCursorMoved (t : Token) : (s.repairCursorMoved t).feed = s.feed := by
  have told : ((s.fixToIndex t).moveDeferred t).feed = s.feed := by simp [State.moveDeferred, State.fixToIndex]
  unfold State.repairCursorMoved
  dsimp only
  split
  · exact told
  · exact (State.feed_passUpdate _).trans told

/-- A completed token, having left the queue, changes no other. -/
theorem State.feed_completeToken (t : Token) : (s.completeToken t).feed = s.feed := by
  simp only [State.completeToken]
  refine (State.feed_withQueue rfl rfl).trans ?_
  split
  · exact (State.feed_repairCursorMoved _ t).trans rfl
  · rfl

@[simp] theorem State.feed_applyPolicy : s.applyPolicy.feed = s.feed := by
  unfold State.applyPolicy
  split <;> simp

@[simp] theorem State.feed_stopForLoss (wasActive : Bool) : (s.stopForLoss wasActive).feed = s.feed := by
  unfold State.stopForLoss
  split <;> simp

theorem State.feed_handover (steps : Nat) : (s.handover steps).feed = s.feed := by
  simp only [State.handover]
  split
  · simp
  · exact (State.feed_applyPolicy _).trans ((State.feed_foldl _ (fun t h => by simp) _).trans (by simp))

@[simp] theorem State.feed_enterFault : s.enterFault.feed = s.feed := by
  simp only [State.enterFault]
  split <;> simp

@[simp] theorem State.feed_finishAtEnd (running : Bool) : (s.finishAtEnd running).feed = s.feed := by
  simp only [State.finishAtEnd]
  repeat' split
  all_goals simp

theorem State.feed_prepareReadDone : s.prepareReadDone.feed = s.feed := by
  unfold State.prepareReadDone
  split
  · next read _ _ _ =>
    have done := s.feed_readChunk read.chunk
    split
    next e =>
      rw [e] at done
      dsimp only
      repeat' split
      · exact (State.feed_withSeq rfl rfl).trans done
      · simpa [State.prepareFault] using done
      · exact done
  · rfl

/-! ### The panel's commands, the heads and the ring (chapters 8, 9, 11 and 12) -/

theorem State.feed_setInhibit (h : Nat) (needles : BitVec 16) : (s.setInhibit h needles).feed = s.feed := by
  have skip : ∀ t : State, (t.skipForInhibit h).feed = t.feed := by
    intro t
    unfold State.skipForInhibit
    split <;> simp
  simp only [State.setInhibit]
  repeat' split
  all_goals simp [skip]

theorem State.feed_headOff (h : Nat) : (s.headOff h).feed = s.feed := by
  unfold State.headOff
  repeat' split
  all_goals simp

theorem State.feed_headOn (h : Nat) : (s.headOn h).feed = s.feed := by
  have brought : (s.bringBack h).feed = s.feed := by
    simp only [State.bringBack]
    repeat' split
    all_goals simp
  unfold State.headOn
  repeat' split
  all_goals simp [brought]

theorem State.feed_startRing : s.startRing.feed = s.feed := by
  have absent : ∀ t : State, t.absentHeads.feed = t.feed := fun t => t.feed_foldl (fun u h => by simp) _
  unfold State.startRing
  repeat' split
  all_goals simp [State.takeRingStart, absent]

@[simp] theorem State.feed_flyPoll : s.flyPoll.feed = s.feed := by
  unfold State.flyPoll
  split <;> simp

theorem State.feed_flyOldest (l : List RingRequest) : (s.flyOldest l).feed = s.feed := by
  induction l with
  | nil => simp [State.flyOldest]
  | cons r rest ih =>
    simp only [State.flyOldest]
    repeat' split
    all_goals simp [ih]

theorem State.feed_ringTransactionStart : s.ringTransactionStart.feed = s.feed := by
  unfold State.ringTransactionStart State.flyEnumeration
  repeat' split
  all_goals simp [State.feed_flyOldest]

theorem State.feed_broadcastSent : s.broadcastSent.feed = s.feed := by
  simp only [State.broadcastSent]
  repeat' split
  all_goals simp

@[simp] theorem State.feed_endEnumeration (foundA foundB : Nat) : (s.endEnumeration foundA foundB).feed = s.feed := by
  have placed : ∀ (t : State) h, (t.placeFound foundA foundB h).feed = t.feed := by
    intro t h
    simp only [State.placeFound]
    repeat' split
    all_goals simp
  simp only [State.endEnumeration, State.feed_post]
  exact (State.feed_foldl _ placed _).trans rfl

theorem State.feed_assignAnswered : s.assignAnswered.feed = s.feed := by
  simp only [State.assignAnswered]
  repeat' split
  all_goals simp

theorem State.feed_assignMissed : s.assignMissed.feed = s.feed := by
  unfold State.assignMissed
  repeat' split
  all_goals simp

theorem State.feed_recoveryAnswered (h : Nat) (w : RingWord) : (s.recoveryAnswered h w).feed = s.feed := by
  simp only [State.recoveryAnswered]
  repeat' split
  all_goals simp

theorem State.feed_watchBobbin (h : Nat) (w : RingWord) : (s.watchBobbin h w).feed = s.feed := by
  simp only [State.watchBobbin]
  split <;> simp

theorem State.feed_watchMotion (h : Nat) (w : RingWord) : (s.watchMotion h w).feed = s.feed := by
  unfold State.watchMotion
  split <;> simp

theorem State.feed_watchTension (h : Nat) (w : RingWord) : (s.watchTension h w).1.feed = s.feed := by
  simp only [State.watchTension]
  repeat' split
  all_goals simp

theorem State.feed_watchSwitch (h : Nat) (w : RingWord) : (s.watchSwitch h w).feed = s.feed := by
  unfold State.watchSwitch
  repeat' split
  all_goals simp

theorem State.feed_requeueMissed (t : Transaction) : (s.requeueMissed t).feed = s.feed := by
  simp only [State.requeueMissed]
  repeat' split
  all_goals simp

theorem State.feed_timeTagTick : s.timeTagTick.feed = s.feed := by
  unfold State.timeTagTick
  split <;> simp

end Sys2Proof.Machine
end

section
/-! PROOF SUPPORT. What an operation keeps of the tokens, and the law of the tokens along it (R46, R53, R76). -/

namespace Sys2Proof.Machine

open Sys2Proof

variable {s t u : State}

/-! ### The relation -/

/-- IDLE and ARMING, the run states with neither token nor split. -/
def RunState.offline (v : RunState) : Prop := v = .idle ∨ v = .arming

theorem RunState.online_running : ¬ RunState.running.offline := by simp [RunState.offline]
theorem RunState.online_armed : ¬ RunState.armed.offline := by simp [RunState.offline]
theorem RunState.online_paused : ¬ RunState.paused.offline := by simp [RunState.offline]
theorem RunState.online_changing : ¬ RunState.changing.offline := by simp [RunState.offline]
theorem RunState.online_walking : ¬ RunState.walking.offline := by simp [RunState.offline]
theorem RunState.online_finished : ¬ RunState.finished.offline := by simp [RunState.offline]

/-- No token is new, the split in progress stands where it stood or is gone, and the run does not come to IDLE or ARMING. -/
structure State.KeepsTokens (s t : State) : Prop where
  constants : t.constants = s.constants
  tokens : t.queue.issued ++ t.queue.prepared ⊆ s.queue.issued ++ s.queue.prepared
  split : t.seq.split = none ∨ t.seq.split = s.seq.split ∧ t.seq.frame = s.seq.frame
  offline : t.run.state.offline → s.run.state.offline

theorem State.KeepsTokens.trans (h : s.KeepsTokens t) (g : t.KeepsTokens u) : s.KeepsTokens u where
  constants := g.constants.trans h.constants
  tokens := List.Subset.trans g.tokens h.tokens
  split := by
    rcases g.split with none | ⟨split, frame⟩
    · exact .inl none
    · rw [split, frame]
      exact h.split
  offline := h.offline ∘ g.offline

/-- An untouched feed keeps the tokens where the run does not come to IDLE or ARMING. -/
theorem State.KeepsTokens.of_feed (h : t.feed = s.feed) (offline : t.run.state.offline → s.run.state.offline) :
    s.KeepsTokens t := by
  obtain ⟨constants, issued, prepared, split, frame⟩ := State.feed_iff.mp h
  exact ⟨constants, by rw [issued, prepared]; exact List.Subset.refl _, .inr ⟨split, frame⟩, offline⟩

theorem State.KeepsTokens.of_run (h : t.feed = s.feed) (run : t.run.state = s.run.state) : s.KeepsTokens t :=
  .of_feed h fun off => run ▸ off

theorem State.KeepsTokens.of_footing (h : t.feed = s.feed) (g : t.footing = s.footing) : s.KeepsTokens t :=
  .of_run h (State.runState_of_footing g)

/-- What leaves the design and the mode does not bring the run to IDLE or ARMING. -/
theorem State.Steady.offline (h : s.Steady t) (off : t.run.state.offline) : s.run.state.offline := by
  rcases off with idle | arming
  · exact .inl (h.1.idle idle)
  · rcases h.2.state with same | ⟨-, plain⟩
    · exact .inr (same ▸ arming)
    · rw [arming] at plain
      cases plain

theorem State.KeepsTokens.of_steady (h : t.feed = s.feed) (g : s.Steady t) : s.KeepsTokens t := .of_feed h g.offline

theorem State.KeepsTokens.refl (s : State) : s.KeepsTokens s := .of_run rfl rfl

/-- Both outcomes of a test keeping the tokens, so does the test. -/
theorem State.KeepsTokens.ite {p : Prop} [Decidable p] (h : s.KeepsTokens t) (g : s.KeepsTokens u) :
    s.KeepsTokens (if p then t else u) := by
  split
  · exact h
  · exact g

/-- A run state other than IDLE and ARMING. -/
theorem State.KeepsTokens.setRunState (s : State) {v : RunState} (online : ¬ v.offline) :
    s.KeepsTokens (s.setRunState v) :=
  .of_feed (s.feed_setRunState v) fun off => absurd (s.setRunState_state v ▸ off) online

/-! ### The law of the tokens -/

theorem State.KeepsTokens.tokensLawful (h : s.KeepsTokens t) (law : s.tokensLawful) : t.tokensLawful := by
  obtain ⟨lawful, standing, empty⟩ := law
  refine ⟨fun k mem => h.constants ▸ lawful k (h.tokens mem), fun sp split => ?_, fun off => ?_⟩
  · rcases h.split with none | ⟨same, frame⟩
    · rw [none] at split
      cases split
    · rw [h.constants, frame]
      exact standing sp (same ▸ split)
  · obtain ⟨issued, prepared, noSplit⟩ := empty (h.offline off)
    have tokens := h.tokens
    rw [issued, prepared, List.append_nil, List.subset_nil, List.append_eq_nil_iff] at tokens
    refine ⟨tokens.1, tokens.2, ?_⟩
    rcases h.split with none | ⟨same, -⟩
    · exact none
    · exact same.trans noSplit

/-- With neither token nor split the law asks nothing. -/
theorem State.tokensLawful_of_empty (issued : t.queue.issued = []) (prepared : t.queue.prepared = [])
    (split : t.seq.split = none) : t.tokensLawful := by
  refine ⟨fun k mem => ?_, fun sp e => ?_, fun _ => ⟨issued, prepared, split⟩⟩
  · rw [issued, prepared] at mem
    cases mem
  · rw [split] at e
    cases e

/-- Every step of the part is to preserve the law of the tokens, while the operations match and the constants are in range. -/
def State.PreservesTokens (s t : State) : Prop :=
  s.operationsMatch → s.constants.inRange → s.tokensLawful → t.tokensLawful

theorem State.KeepsTokens.preserves (h : s.KeepsTokens t) : s.PreservesTokens t := fun _ _ => h.tokensLawful

theorem State.PreservesTokens.trans (h : s.PreservesTokens t) (g : t.KeepsTokens u) : s.PreservesTokens u :=
  fun mode range law => g.tokensLawful (h mode range law)

/-- What follows an operation that leaves the feed and the mode need only preserve the law from there on. -/
theorem State.PreservesTokens.after (feed : t.feed = s.feed) (steady : s.Steady t) (g : t.PreservesTokens u) :
    s.PreservesTokens u := fun mode range law =>
  have kept := State.KeepsTokens.of_steady feed steady
  g (steady.2.operationsMatch mode) (kept.constants ▸ range) (kept.tokensLawful law)

/-- In IDLE and ARMING, where neither token nor split stands, an untouched feed has none in any run state. -/
theorem State.PreservesTokens.of_offline (feed : t.feed = s.feed) (off : s.operationsMatch → s.run.state.offline) :
    s.PreservesTokens t := by
  rintro mode - ⟨-, -, empty⟩
  obtain ⟨noIssued, noPrepared, noSplit⟩ := empty (off mode)
  obtain ⟨-, issued, prepared, split, -⟩ := State.feed_iff.mp feed
  exact State.tokensLawful_of_empty (issued.trans noIssued) (prepared.trans noPrepared) (split.trans noSplit)

/-- A frame that ends on a port preserves the law where its body does. -/
theorem State.PreservesTokens.onFrame {port : Port} {body : State → State} (h : ∀ u : State, u.PreservesTokens (body u)) :
    s.PreservesTokens (s.onFrame port body) := by
  unfold State.onFrame
  split
  · exact .after (by simp) (.of_footing (by simp)) (h _)
  · exact (State.KeepsTokens.of_footing (by simp) (by simp)).preserves

/-- An event of the part preserves the law where its body does. -/
theorem State.PreservesTokens.onEvent {body : State → State} (h : s.PreservesTokens (body s)) :
    s.PreservesTokens (s.onEvent body) := by
  unfold State.onEvent
  split
  · exact (State.KeepsTokens.refl s).preserves
  · exact h

end Sys2Proof.Machine
end

section
/-! PROOF SUPPORT. A turn of preparation under the law of the tokens: the token it places is lawful, and so is the split it
leaves (R46, R47, R53, R69, R76). -/

namespace Sys2Proof.Machine

open Sys2Proof

variable {s t : State}

/-! ### Lawful tokens and splits -/

/-- A STEP or TRAVEL within ±M under a ceiling of R53 is lawful. -/
theorem Token.lawful_move {k : Token} {maxStep : Nat} (kind : k.kind = .step ∨ k.kind = .travel) (reason : k.reason = none)
    (x : k.mx.natAbs ≤ maxStep) (y : k.my.natAbs ≤ maxStep) {c : Constants} {runSpeed ramp len : Nat} {slow : Bool}
    (ceiling : k.ceiling = some (ceilingOf c runSpeed ramp len slow)) : k.lawful maxStep := by
  have lawful : k.reason = none ∧ k.mx.natAbs ≤ maxStep ∧ k.my.natAbs ≤ maxStep ∧
      ∃ v, k.ceiling = some v ∧ 100 ≤ v ∧ v ≤ 1200 ∧ v % 10 = 0 :=
    ⟨reason, x, y, _, ceiling, ceilingOf_bounds c runSpeed ramp len slow⟩
  unfold Token.lawful
  rcases kind with kind | kind <;> rw [kind] <;> exact lawful

/-- A split as R46 gives it, with pieces still to come and the prepared frame position at its last sub-target. -/
def Split.lawful (sp : Split) (maxStep : Nat) (frame : Point) : Prop :=
  sp.pieces = pieceCount maxStep (sp.target.minus sp.start) ∧ sp.prepared < sp.pieces ∧
    frame = subTarget sp.start sp.target sp.pieces sp.prepared

/-- A split that begins at the prepared frame position is lawful. -/
theorem State.splitTo_lawful (pos : 1 ≤ s.constants.maxStep) (goal : Point) (owner : SplitOwner) :
    (s.splitTo goal owner).lawful s.constants.maxStep s.seq.frame := ⟨rfl, one_le_pieceCount pos _, rfl⟩

/-- The next piece of a lawful split stays within ±M on each axis. -/
theorem Split.lawful.step {sp : Split} {maxStep : Nat} {frame : Point} (h : sp.lawful maxStep frame) (pos : 1 ≤ maxStep) :
    ((subTarget sp.start sp.target sp.pieces (sp.prepared + 1)).minus frame).x.natAbs ≤ maxStep ∧
      ((subTarget sp.start sp.target sp.pieces (sp.prepared + 1)).minus frame).y.natAbs ≤ maxStep := by
  obtain ⟨pieces, -, here⟩ := h
  rw [here, pieces]
  exact subTarget_step pos sp.start sp.target sp.prepared

/-- A lawful split with one piece more prepared, and pieces still to come, is lawful at its next sub-target. -/
theorem Split.lawful.next {sp : Split} {maxStep : Nat} {frame : Point} (h : sp.lawful maxStep frame)
    (more : sp.prepared + 1 ≠ sp.pieces) : Split.lawful { sp with prepared := sp.prepared + 1 } maxStep
      (subTarget sp.start sp.target sp.pieces (sp.prepared + 1)) := by
  obtain ⟨pieces, below, -⟩ := h
  exact ⟨pieces, by show sp.prepared + 1 < sp.pieces; omega, rfl⟩

/-! ### A token placed -/

/-- A lawful token placed at the tail of the queue in RUNNING, the split left lawful or none. -/
theorem State.tokensLawful.append (law : s.tokensLawful) (running : s.run.state = .running) {k : Token}
    (constants : t.constants = s.constants) (run : t.run = s.run) (issued : t.queue.issued = s.queue.issued)
    (prepared : t.queue.prepared = s.queue.prepared ++ [k]) (lawful : k.lawful s.constants.maxStep)
    (split : ∀ sp, t.seq.split = some sp → sp.lawful s.constants.maxStep t.seq.frame) : t.tokensLawful := by
  obtain ⟨all, -, -⟩ := law
  rw [← constants] at all lawful split
  refine ⟨fun j mem => ?_, split, fun off => ?_⟩
  · rw [issued, prepared, ← List.append_assoc] at mem
    rcases List.mem_append.mp mem with old | new
    · exact all j old
    · rw [List.mem_singleton.mp new]
      exact lawful
  · rw [run, running] at off
    exact absurd off RunState.online_running

/-- A lawful token without a move placed in RUNNING, with the split and the prepared frame position as they were. -/
theorem State.tokensLawful.placeStill (law : s.tokensLawful) (running : s.run.state = .running) {k : Token}
    (lawful : Token.lawful s.constants.maxStep { k with seq := s.queue.nextSeq }) {v : Sequencer}
    (split : v.split = s.seq.split) (frame : v.frame = s.seq.frame) : ((s.placeToken k).withSeq v).tokensLawful := by
  refine law.append running rfl rfl rfl rfl lawful fun sp e => ?_
  obtain ⟨-, standing, -⟩ := law
  have same : ((s.placeToken k).withSeq v).seq.frame = s.seq.frame := frame
  rw [same]
  exact standing sp (split ▸ e)

/-- The next piece of a lawful split placed in RUNNING, the split left as its last piece or a later one leaves it. -/
theorem State.tokensLawful.piecePlaced (law : s.tokensLawful) (running : s.run.state = .running)
    (pos : 1 ≤ s.constants.maxStep) {sp : Split} (standing : sp.lawful s.constants.maxStep s.seq.frame)
    (step slow last : Bool) (design : Point) (role : TokenRole) {q : Sequencer}
    (after : q.split = if sp.prepared + 1 = sp.pieces then none else some { sp with prepared := sp.prepared + 1 }) :
    (s.piecePlaced sp step slow last design role q).tokensLawful := by
  rw [State.piecePlaced_eq]
  obtain ⟨x, y⟩ := standing.step pos
  refine law.append running rfl rfl rfl rfl (Token.lawful_move ?_ rfl x y rfl) fun next split => ?_
  · cases step
    · exact .inr rfl
    · exact .inl rfl
  · have split' : q.split = some next := split
    rw [after] at split'
    split at split'
    · cases split'
    · next more =>
      cases split'
      exact standing.next more

theorem Sequencer.afterApproach_split (q : Sequencer) (sp : Split) : (q.afterApproach sp).split =
    if sp.prepared + 1 = sp.pieces then none else some { sp with prepared := sp.prepared + 1 } := by
  unfold Sequencer.afterApproach
  split <;> rfl

theorem Sequencer.afterPiece_split (q : Sequencer) (sp : Split) (design : Point) : (q.afterPiece sp design).split =
    if sp.prepared + 1 = sp.pieces then none else some { sp with prepared := sp.prepared + 1 } := by
  unfold Sequencer.afterPiece
  split <;> rfl

/-! ### The turn (R80) -/

section turn

variable (law : s.tokensLawful) (running : s.run.state = .running) (pos : 1 ≤ s.constants.maxStep)
include law running

theorem State.tokensLawful.placeHalt (reason : HaltReason) : (s.placeHalt reason).tokensLawful :=
  law.placeStill running (k := s.stillToken .halt (some reason) (decide (reason ≠ .join)) .record)
    ⟨rfl, rfl, rfl, rfl⟩ rfl rfl

theorem State.tokensLawful.placeHaltTrim (reason : HaltReason) : (s.placeHaltTrim reason).tokensLawful :=
  law.placeStill running (k := s.stillToken .trim none false .haltTrim) ⟨rfl, rfl, rfl, rfl⟩ rfl rfl

omit running in
theorem State.tokensLawful.askPrepareRead : s.askPrepareRead.tokensLawful := by
  refine State.KeepsTokens.tokensLawful (.of_footing ?_ s.footing_askPrepareRead) law
  unfold State.askPrepareRead
  split <;> simp

include pos

theorem State.tokensLawful.placeApproachPiece {sp : Split} (standing : sp.lawful s.constants.maxStep s.seq.frame) :
    (s.placeApproachPiece sp).tokensLawful := by
  rw [State.placeApproachPiece_eq]
  exact law.piecePlaced running pos standing _ _ _ _ _ (Sequencer.afterApproach_split _ _)

theorem State.tokensLawful.placeRecordPiece {sp : Split} (standing : sp.lawful s.constants.maxStep s.seq.frame)
    (r : StitchRecord) : (s.placeRecordPiece sp r).tokensLawful := by
  rw [State.placeRecordPiece_eq]
  exact law.piecePlaced running pos standing _ _ _ _ _ (Sequencer.afterPiece_split _ _ _)

theorem State.tokensLawful.placeRecord (r : StitchRecord) : (s.placeRecord r).tokensLawful := by
  unfold State.placeRecord
  split
  · exact law.placeRecordPiece running pos (State.splitTo_lawful pos _ _) r
  · exact law.placeRecordPiece running pos (State.splitTo_lawful pos _ _) r
  · exact law.placeStill running (k := s.stillToken .trim none true .record) ⟨rfl, rfl, rfl, rfl⟩ rfl rfl
  · split
    · exact law.placeHaltTrim running _
    · exact law.placeHalt running _
  · exact law.placeHalt running _
  · exact law.placeHaltTrim running _

theorem State.tokensLawful.turnAtRecord : s.turnAtRecord.tokensLawful := by
  unfold State.turnAtRecord
  split
  · exact law.placeHalt running _
  · split
    · exact law.placeRecord running pos _
    · exact law.askPrepareRead

theorem State.tokensLawful.turnAtSplit {sp : Split} (split : s.seq.split = some sp) : (s.turnAtSplit sp).tokensLawful := by
  have ⟨_, standing, _⟩ := law
  have lawful : sp.lawful s.constants.maxStep s.seq.frame := standing sp split
  unfold State.turnAtSplit
  split
  · exact law.placeApproachPiece running pos lawful
  · split
    · exact law.placeRecordPiece running pos lawful _
    · exact law.askPrepareRead

theorem State.tokensLawful.turnAtApproach : s.turnAtApproach.tokensLawful := by
  unfold State.turnAtApproach
  dsimp only
  split
  · have cleared : (s.withSeq { s.seq with approach := false }).tokensLawful :=
      State.KeepsTokens.tokensLawful (.of_run (State.feed_withSeq rfl rfl) rfl) law
    exact cleared.turnAtRecord running pos
  · exact law.placeApproachPiece running pos (State.splitTo_lawful pos _ _)

end turn

/-- A turn of preparation preserves the law, by the case of R80 it takes. -/
theorem State.PreservesTokens.prepareOne (s : State) : s.PreservesTokens s.prepareOne := by
  intro _ range law
  have pos := range.maxStep
  by_cases may : s.mayPrepare = true
  · obtain ⟨running, -, -⟩ := s.mayPrepare_iff.mp may
    cases split : s.seq.split with
    | some sp =>
      rw [State.prepareOne_split may split]
      exact law.turnAtSplit running pos split
    | none =>
      cases halt : s.seq.halt with
      | some h =>
        rw [State.prepareOne_halt may split halt]
        exact law.placeHalt running _
      | none =>
        cases approach : s.seq.approach with
        | true =>
          rw [State.prepareOne_approach may split halt approach]
          exact law.turnAtApproach running pos
        | false =>
          rw [State.prepareOne_free may split halt approach]
          exact law.turnAtRecord running pos
  · rw [State.prepareOne_waits (by simpa using may)]
    exact law

end Sys2Proof.Machine
end

section
/-! PROOF SUPPORT. What changes, the ring, halts, reports and walks keep of the tokens (chapters 5 to 10). -/

namespace Sys2Proof.Machine

open Sys2Proof

variable (s : State)

/-! ### Colour changes (chapter 7) -/

theorem State.setRunState_seq (v : RunState) :
    (s.setRunState v).seq.split = s.seq.split ∧ (s.setRunState v).seq.frame = s.seq.frame := by
  obtain ⟨-, -, -, split, frame⟩ := State.feed_iff.mp (s.feed_setRunState v)
  exact ⟨split, frame⟩

/-- A run state written, and the ramp count of the Sequencer as it stood. -/
theorem State.feed_reloadRamp (v : RunState) (ramp : Nat) :
    ((s.setRunState v).withSeq { s.seq with ramp := ramp }).feed = s.feed := by
  obtain ⟨split, frame⟩ := s.setRunState_seq v
  exact (State.feed_withSeq split.symm frame.symm).trans (s.feed_setRunState v)

theorem State.feed_resumeDecision (action : ChangeAction) (full : Option Nat) :
    (s.resumeDecision action full).feed = s.feed := by
  unfold State.resumeDecision
  repeat' split
  all_goals simp [State.feed_reloadRamp]

theorem State.feed_completeChange (c : ChangeRecord) : (s.completeChange c).feed = s.feed := by
  rw [State.completeChange_eq, State.concludeChange, State.feed_withChange, State.feed_post, State.feed_resumeDecision,
    State.feed_withChange, State.feed_inhibitCheck]
  rfl

/-- A change that completes leaves the run RUNNING or PAUSED. -/
theorem State.KeepsTokens.completeChange (c : ChangeRecord) : s.KeepsTokens (s.completeChange c) := by
  obtain ⟨st, e, ends⟩ := s.completeChange_footing c
  have state : (s.completeChange c).run.state = st := State.runState_of_footing e
  refine .of_feed (s.feed_completeChange c) fun off => ?_
  rw [state] at off
  rcases ends with rfl | rfl
  · exact absurd off RunState.online_running
  · exact absurd off RunState.online_paused

theorem State.KeepsTokens.settleChange : s.KeepsTokens s.settleChange := by
  unfold State.settleChange
  split
  · split
    · exact .completeChange s _
    · exact .refl s
  · exact .refl s

theorem State.KeepsTokens.startChange (needle : Nat) (action : ChangeAction) :
    s.KeepsTokens (s.startChange needle action) := by
  unfold State.startChange
  extract_lets record t src u
  have entered : s.KeepsTokens t :=
    State.KeepsTokens.trans (t := s.withChange (some record)) (.of_run rfl rfl) (.setRunState _ RunState.online_changing)
  have offered : t.KeepsTokens (u.offer { function := .selectNeedle, head := broadcastId, data := needle }) :=
    .of_footing ((State.feed_offer _ _).trans (t.feed_withRing _)) ((State.footing_offer _ _).trans (t.footing_withRing _))
  exact (entered.trans offered).trans (.settleChange _)

/-- The run goes on RUNNING with the ramp count reloaded. -/
theorem State.KeepsTokens.runs (ramp : Nat) :
    s.KeepsTokens ((s.setRunState .running).withSeq { s.seq with ramp := ramp }) := by
  obtain ⟨split, frame⟩ := s.setRunState_seq .running
  exact (State.KeepsTokens.setRunState s RunState.online_running).trans
    (.of_run (State.feed_withSeq split.symm frame.symm) rfl)

theorem State.KeepsTokens.startRun : s.KeepsTokens s.startRun := by
  have refused : ∀ code, s.KeepsTokens (s.refuse .p code) := fun code => .of_footing (by simp) (by simp)
  have started : s.KeepsTokens s.takeStart := by
    have reason : s.KeepsTokens (s.setStopReason .none) := .of_run rfl rfl
    unfold State.takeStart
    dsimp only
    split
    · exact reason.trans (.startChange _ _ _)
    · exact reason.trans (.runs (s.setStopReason .none) _)
  unfold State.startRun
  split
  · exact refused _
  · split
    · exact refused _
    · split
      · exact refused _
      · exact started.trans (.of_footing (State.feed_reply _ _ _ _) (State.footing_reply _ _ _ _))

theorem State.KeepsTokens.changeDeadline : s.KeepsTokens s.changeDeadline := by
  unfold State.changeDeadline
  split
  · exact .refl s
  · split
    · exact .refl s
    · exact (State.KeepsTokens.of_footing (State.feed_foldl s (fun t h => by simp) _)
        (State.footing_foldl s (fun t h => by simp) _)).trans (.settleChange _)

/-! ### Answers and misses of the ring (chapters 8 and 9) -/

theorem State.KeepsTokens.confirmNeedle (t : Transaction) (w : RingWord) : s.KeepsTokens (s.confirmNeedle t w) := by
  unfold State.confirmNeedle
  split
  · exact .refl s
  · next c _ =>
    split
    · exact State.KeepsTokens.trans (.of_run (State.feed_withChange s (some _)) rfl) (.settleChange _)
    · exact .refl s

/-- A head that is lost, the stop it may ask for, and the change it may complete. -/
theorem State.KeepsTokens.loseAndSettle (h : Nat) (c : LossCause) (wasActive : Bool) :
    s.KeepsTokens (((s.loseHead h c).stopForLoss wasActive).settleChange) :=
  (State.KeepsTokens.of_steady (by simp) ((State.Steady.of_footing (by simp)).trans (.stopForLoss _ _))).trans
    (.settleChange _)

theorem State.KeepsTokens.superviseAnswer (h : Nat) (w : RingWord) : s.KeepsTokens (s.superviseAnswer h w) := by
  unfold State.superviseAnswer
  refine (State.KeepsTokens.of_footing (s.feed_reportNeedle h w) (s.footing_reportNeedle h w)).trans ?_
  generalize s.reportNeedle h w = a
  dsimp only
  split
  · exact .loseAndSettle a h .board _
  · have switched : a.KeepsTokens
        ((((a.watchBobbin h w).watchMotion h w).watchTension h w).1.watchSwitch h w) :=
      .of_footing
        (by rw [State.feed_watchSwitch, State.feed_watchTension, State.feed_watchMotion, State.feed_watchBobbin])
        (by rw [State.footing_watchSwitch, State.footing_watchTension, State.footing_watchMotion,
          State.footing_watchBobbin])
    split
    · exact switched.trans (.of_steady (State.feed_applyPolicy _) (.applyPolicy _))
    · exact switched

theorem State.KeepsTokens.unicastAnswered (t : Transaction) (w : RingWord) : s.KeepsTokens (s.unicastAnswered t w) := by
  unfold State.unicastAnswered
  dsimp only
  split
  · exact .refl s
  · split
    · exact .of_footing (s.feed_recoveryAnswered _ _) (s.footing_recoveryAnswered _ _)
    · have confirmed : s.KeepsTokens ((s.putRingRecord t.request.head
          { s.ringRecord t.request.head with misses := 0 }).confirmNeedle t w) :=
        State.KeepsTokens.trans (.of_run (State.feed_putRingRecord _ _ _) rfl) (.confirmNeedle _ t w)
      split
      · exact confirmed
      · exact confirmed.trans (.superviseAnswer _ _ w)

/-- The transaction in flight ends. -/
theorem State.KeepsTokens.landed : s.KeepsTokens (s.withRing { s.ring with flight := none }) := .of_run rfl rfl

theorem State.KeepsTokens.ringAnswer (e : RingEnd) (w : RingWord) : s.KeepsTokens (s.ringAnswer e w) := by
  unfold State.ringAnswer
  split
  · exact .refl s
  · next t _ =>
    split
    · exact .refl s
    · dsimp only
      refine (State.KeepsTokens.landed s).trans ?_
      generalize s.withRing { s.ring with flight := none } = u
      split
      · exact .refl u
      · split
        · exact .of_footing u.feed_assignAnswered u.footing_assignAnswered
        · exact .unicastAnswered u t w

theorem State.KeepsTokens.thirdMiss (h : Nat) : s.KeepsTokens (s.thirdMiss h) := by
  unfold State.thirdMiss
  dsimp only
  split
  · exact .of_footing (by simp) (by simp)
  · exact State.KeepsTokens.trans (.of_run (State.feed_putRingRecord _ _ _) rfl) (.loseAndSettle _ h .ring _)

theorem State.KeepsTokens.unicastMissed (t : Transaction) : s.KeepsTokens (s.unicastMissed t) := by
  unfold State.unicastMissed
  dsimp only
  split
  · exact .refl s
  · split
    · exact .of_footing (by simp) (by simp)
    · refine (State.KeepsTokens.of_footing (s.feed_requeueMissed t) (s.footing_requeueMissed t)).trans ?_
      generalize s.requeueMissed t = u
      split
      · exact .thirdMiss u _
      · exact .of_run rfl rfl

theorem State.KeepsTokens.ringTimeout : s.KeepsTokens s.ringTimeout := by
  unfold State.ringTimeout
  split
  · exact .refl s
  · next t _ =>
    split
    · exact .refl s
    · dsimp only
      refine (State.KeepsTokens.landed s).trans ?_
      generalize s.withRing { s.ring with flight := none } = u
      split
      · exact .refl u
      · split
        · exact .of_footing u.feed_assignMissed u.footing_assignMissed
        · exact .unicastMissed u t

/-! ### Fetches, reports and halts (chapters 4 and 5) -/

theorem State.KeepsTokens.fetchMoves (max : Nat) : s.KeepsTokens (s.fetchMoves max) := by
  have opened : s.KeepsTokens s.openStarvation := by
    unfold State.openStarvation
    split
    · exact State.KeepsTokens.trans (.of_run (State.feed_withQueue rfl rfl) rfl)
        (.of_footing (State.feed_post _ _ _ _) (State.footing_post _ _ _ _))
    · exact .refl s
  have issued : ∀ (t : State) n, t.KeepsTokens (t.issue n) := by
    intro t n
    obtain ⟨-, same⟩ := t.issue_eq n
    exact ⟨rfl, by rw [same]; exact List.Subset.refl _, .inr ⟨rfl, rfl⟩, id⟩
  unfold State.fetchMoves
  split
  · exact .of_footing (by simp) (by simp)
  · exact (opened.trans (issued _ _)).trans (.of_footing (State.feed_reply _ _ _ _) (State.footing_reply _ _ _ _))

theorem State.KeepsTokens.completeTokens (n : Nat) : s.KeepsTokens (s.completeTokens n) := by
  induction n generalizing s with
  | zero => exact .refl s
  | succ n ih =>
    unfold State.completeTokens
    split
    · exact .refl s
    · next t rest issued =>
      have left : s.KeepsTokens (s.withQueue { s.queue with issued := rest }) := by
        refine ⟨rfl, ?_, .inr ⟨rfl, rfl⟩, id⟩
        rw [issued]
        exact List.subset_cons_self t _
      exact (left.trans (.of_steady (State.feed_completeToken _ t) (.completeToken _ t))).trans (ih _)

theorem State.KeepsTokens.completeReport (n : Nat) : s.KeepsTokens (s.completeReport n) :=
  (State.KeepsTokens.completeTokens s n).trans (.of_steady (State.feed_handover _ _) (.handover _ _))

/-- A rollback empties the queue and ends the split. -/
theorem State.KeepsTokens.rollback : s.KeepsTokens s.rollback := by
  obtain ⟨a, f, e⟩ := s.rollback_eq
  rw [e]
  exact ⟨rfl, List.nil_subset _, .inl rfl, id⟩

variable {s} in
theorem State.KeepsTokens.haltOutcome (p : s.run.state.plain = true) (t : Token) (running : Bool) :
    s.KeepsTokens (s.haltOutcome t running) := by
  have paused : ∀ u : State, u.KeepsTokens (u.setRunState .paused) := fun u =>
    .setRunState u RunState.online_paused
  have joined : s.KeepsTokens s.joinHeads := .of_footing s.feed_joinHeads s.footing_joinHeads
  unfold State.haltOutcome
  split
  · exact .startChange s _ _
  · dsimp only
    split
    · exact (paused s).trans (.of_footing (by simp) (by simp))
    · exact (paused s).trans (.of_footing (by simp) (by simp))
  · exact .of_steady (s.feed_finishAtEnd running) (.finishAtEnd p running)
  · split
    · exact joined
    · exact (joined.trans (paused _)).trans (.of_footing (State.feed_postStopped _) (State.footing_postStopped _))
  · exact .refl s

theorem State.KeepsTokens.resolveHalt (t : Token) : s.KeepsTokens (s.resolveHalt t) := by
  unfold State.resolveHalt
  dsimp only
  refine State.KeepsTokens.trans (t := s.withSeq { s.seq with haltFlag := false })
    (.of_run (State.feed_withSeq rfl rfl) rfl) ?_
  generalize s.withSeq { s.seq with haltFlag := false } = u
  split
  · next e => exact .haltOutcome (by rw [e]; rfl) t true
  · next e =>
    have plain : u.run.state.plain = true := by rw [e]; rfl
    split
    · exact .of_steady u.feed_enterFault (.enterFault plain)
    · split
      · exact .of_steady u.feed_finishRepair (.finishRepair plain)
      · exact .haltOutcome plain t false
  · exact .refl u

theorem State.feed_stoppedOutcome : s.stoppedOutcome.feed = s.feed := by
  unfold State.stoppedOutcome
  repeat' split
  all_goals simp

theorem State.KeepsTokens.comeToRest (halt : Option Token) : s.KeepsTokens (s.comeToRest halt) := by
  unfold State.comeToRest
  split
  · exact (State.KeepsTokens.rollback s).trans (.resolveHalt _ _)
  · exact (State.KeepsTokens.rollback s).trans (.of_steady (State.feed_stoppedOutcome _) .stoppedOutcome)

theorem State.KeepsTokens.doneReport (seq : Nat) : s.KeepsTokens (s.doneReport seq) := by
  unfold State.doneReport
  split
  · next n _ =>
    refine State.KeepsTokens.trans ?_ (.of_footing (State.feed_reportReply _ _) (State.footing_reportReply _ _))
    have completed := State.KeepsTokens.completeReport s n
    unfold State.takeDone
    dsimp only
    split
    · exact completed.trans (.comeToRest _ _)
    · exact completed
  · exact .of_footing (by simp) (by simp)

theorem State.KeepsTokens.stoppedReport (form seq : Nat) : s.KeepsTokens (s.stoppedReport form seq) := by
  unfold State.stoppedReport
  split
  · next n _ =>
    exact ((State.KeepsTokens.completeReport s n).trans (.comeToRest _ _)).trans
      (.of_footing (State.feed_reportReply _ _) (State.footing_reportReply _ _))
  · exact .of_footing (by simp) (by simp)

/-! ### Walks (chapter 6) -/

/-- A walk handed over ends the split and leaves the run FINISHED or PAUSED. -/
theorem State.KeepsTokens.takeWalk (w : WalkRecord) : s.KeepsTokens (s.takeWalk w) := by
  rw [State.takeWalk_eq]
  refine ⟨rfl, List.Subset.refl _, .inl rfl, fun off => ?_⟩
  simp only [State.withSeq_run, State.withRun_run] at off
  split at off
  · exact absurd off RunState.online_finished
  · exact absurd off RunState.online_paused

theorem State.KeepsTokens.endWalk (w : WalkRecord) (cause : WalkEnd) : s.KeepsTokens (s.endWalk w cause) := by
  have handed : s.KeepsTokens ((s.dropRead .walk).takeWalk w) :=
    State.KeepsTokens.trans (.of_footing (s.feed_dropRead .walk) (s.footing_dropRead .walk)) (.takeWalk _ w)
  refine handed.trans (.of_steady ?_ (State.Steady.endWalk_of_takeWalk s w cause))
  unfold State.endWalk
  extract_lets taken skipped placed
  have skip : skipped.feed = taken.feed := State.feed_foldl _ (fun t h => by simp) _
  have place : placed.feed = taken.feed := by
    unfold placed
    split
    · exact skip
    · exact (State.feed_placeAll _).trans skip
  unfold State.finishEmptied
  split <;> simpa using place

theorem State.KeepsTokens.advanceWalk (w : WalkRecord) : s.KeepsTokens (s.advanceWalk w) := by
  unfold State.advanceWalk
  split
  · exact .endWalk s w _
  · exact State.KeepsTokens.trans (.of_run (s.feed_withWalk (some w)) rfl)
      (.of_footing (State.feed_askRead _ _ _) (State.footing_askRead _ _ _))

theorem State.KeepsTokens.startWalk (requester : WalkRequester) (mode : WalkMode) (goal : Nat) (direction : WalkDirection) :
    s.KeepsTokens (s.startWalk requester mode goal direction) :=
  State.KeepsTokens.trans (.setRunState s RunState.online_walking) (.advanceWalk _ _)

theorem State.KeepsTokens.walkRun (mode n : Nat) : s.KeepsTokens (s.walkRun mode n) := by
  have refused : ∀ code, s.KeepsTokens (s.refuse .p code) := fun code => .of_footing (by simp) (by simp)
  unfold State.walkRun
  split
  · exact refused _
  · refine State.KeepsTokens.ite (refused _) (.ite (refused _) (.ite (refused _) ?_))
    refine State.KeepsTokens.trans ?_ (.of_footing (State.feed_reply _ _ _ _) (State.footing_reply _ _ _ _))
    unfold State.beginWalk
    split
    · exact .startWalk s _ _ _ _
    · exact .startWalk s _ _ _ _
    · exact .startWalk s _ _ _ _
    · exact .startWalk s _ _ _ _

theorem State.KeepsTokens.repairRun : s.KeepsTokens s.repairRun := by
  have refused : ∀ code, s.KeepsTokens (s.refuse .p code) := fun code => .of_footing (by simp) (by simp)
  have begun : s.KeepsTokens ((s.withRun { s.run with pass := .repair, outstanding := false }).withRepairs
      (s.repairs.map fun e => { e with sewing := false, deferred := none })) := .of_run rfl rfl
  have started : s.KeepsTokens s.takeRepair := begun.trans (.startWalk _ _ _ _ _)
  unfold State.repairRun
  exact .ite (refused _) (.ite (refused _) (.ite (refused _)
    (started.trans (.of_footing (State.feed_reply _ _ _ _) (State.footing_reply _ _ _ _)))))

theorem State.KeepsTokens.walkReadDone : s.KeepsTokens s.walkReadDone := by
  unfold State.walkReadDone
  split
  · next read _ _ _ =>
    have feed := s.feed_readChunk read.chunk
    have done := State.Steady.readChunk s read.chunk
    split
    next t result e =>
      rw [e] at feed done
      dsimp only
      refine (State.KeepsTokens.of_steady feed done).trans (State.KeepsTokens.trans (.of_run (t.feed_endAccess .walk) rfl) ?_)
      generalize t.endAccess .walk = u
      split
      · next w _ _ =>
        split
        · unfold State.walkRecord
          split
          · exact .endWalk u _ _
          · exact .advanceWalk u _
        · refine State.KeepsTokens.trans (.of_steady ?_ (State.Steady.trans (.of_footing (u.footing_recordFault .walk
            (some (walkCommand w.requester)) (u.run.armedSlot.getD 0) (read.index - read.index % 4) .memory))
            (State.Steady.trans (.damageSlot _ (u.run.armedSlot.getD 0)) (.of_footing (State.footing_post _ .memoryFault 0
              (chunkParam read.chunk)))))) (.endWalk _ _ _)
          simp
      · exact .refl u
  · exact .refl s

end Sys2Proof.Machine
end

section
/-! PROOF. O59: every step keeps every token within ±M under a lawful ceiling, and the split in progress as R46 gives it. -/

namespace Sys2Proof.Machine

open Sys2Proof

variable {s : State}

/-! ### Slots and the close scan (chapter 2) -/

theorem State.KeepsTokens.openDesign (slot len : Nat) : s.KeepsTokens (s.openDesign slot len) := by
  have refused : ∀ code, s.KeepsTokens (s.refuse .p code) := fun code => .of_footing (by simp) (by simp)
  obtain ⟨st, e⟩ := s.allocate_eq len
  unfold State.openDesign
  rw [e]
  exact .ite (refused _) (.ite (refused _) (.ite (refused _) (.ite (refused _) (.of_run (by simp) rfl))))

theorem State.KeepsTokens.deleteSlot (slot : Nat) : s.KeepsTokens (s.deleteSlot slot) := by
  have refused : ∀ code, s.KeepsTokens (s.refuse .p code) := fun code => .of_footing (by simp) (by simp)
  exact .ite (refused _) (.ite (refused _) (.ite (refused _) (.ite (refused _) (.ite (refused _) (.of_run rfl rfl)))))

theorem State.KeepsTokens.closeDesign (slot : Nat) : s.KeepsTokens (s.closeDesign slot) := by
  have refused : ∀ code, s.KeepsTokens (s.refuse .p code) := fun code => .of_footing (by simp) (by simp)
  unfold State.closeDesign
  refine .ite (refused _) (.ite (refused _) (.ite (refused _) (.ite (refused _) ?_)))
  extract_lets c src t
  have begun : s.KeepsTokens t := .of_run rfl rfl
  exact begun.trans (.of_footing (by simp) (by simp))

theorem State.KeepsTokens.failScan (c : CloseScan) (cause : CloseCause) (index : Nat) :
    s.KeepsTokens (s.failScan c cause index) := by
  unfold State.failScan
  extract_lets v src t
  have ended : s.KeepsTokens t := .of_run rfl rfl
  exact ended.trans (.of_footing (State.feed_post _ _ _ _) (State.footing_post _ _ _ _))

theorem State.KeepsTokens.passScan (c : CloseScan) : s.KeepsTokens (s.passScan c) := by
  unfold State.passScan
  extract_lets src t
  have ended : s.KeepsTokens t := .of_run rfl rfl
  exact ended.trans (.of_footing (State.feed_post _ _ _ _) (State.footing_post _ _ _ _))

theorem State.KeepsTokens.scanChunk (c : CloseScan) (chunk : Chunk) (result : ReadResult) :
    s.KeepsTokens (s.scanChunk c chunk result) := by
  unfold State.scanChunk
  dsimp only
  split
  · exact .failScan _ _ _
  · split
    · exact (State.KeepsTokens.of_footing (State.feed_recordFault _ _ _ _ _ _) (State.footing_recordFault _ _ _ _ _ _)).trans
        (.failScan _ _ _)
    · split
      · exact .failScan _ _ _
      · exact .ite (.passScan _) (.of_run rfl rfl)

theorem State.KeepsTokens.closeScanReadDone : s.KeepsTokens s.closeScanReadDone := by
  unfold State.closeScanReadDone
  split
  · next read _ _ _ =>
    have feed := s.feed_readChunk read.chunk
    have done := State.Steady.readChunk s read.chunk
    split
    next t result e =>
      rw [e] at feed done
      dsimp only
      refine (State.KeepsTokens.of_steady feed done).trans
        (State.KeepsTokens.trans (.of_run (t.feed_endAccess .closeScan) rfl) ?_)
      generalize t.endAccess .closeScan = u
      split
      · exact .scanChunk _ _ _
      · exact .refl u
  · exact .refl s

/-! ### Into and out of ARMING and IDLE (R60 to R63, R73) -/

/-- ARM sets up an empty queue and no split (R61). -/
theorem State.tokensLawful_takeArm (s : State) (slot : Nat) (tr : Transform) (now : Point) :
    (s.takeArm slot tr now).tokensLawful := by
  obtain ⟨a, e⟩ := s.takeArm_eq slot tr now
  rw [e]
  exact State.tokensLawful_of_empty rfl rfl rfl

theorem State.PreservesTokens.armRun (slot sx sy angle : Nat) (mirror : Bool) (ox oy nowX nowY : Nat) :
    s.PreservesTokens (s.armRun slot sx sy angle mirror ox oy nowX nowY) := by
  intro _ _ law
  have refused : ∀ code, (s.refuse .p code).tokensLawful := fun code =>
    State.KeepsTokens.tokensLawful (.of_footing (by simp) (by simp)) law
  have taken : ∀ tr now, ((s.takeArm slot tr now).reply .p .accepted []).tokensLawful := fun tr now =>
    State.KeepsTokens.tokensLawful (.of_footing (State.feed_reply _ _ _ _) (State.footing_reply _ _ _ _))
      (s.tokensLawful_takeArm slot tr now)
  rw [State.armRun_eq]
  iterate 7 refine iteInduction (motive := State.tokensLawful) (fun _ => refused _) fun _ => ?_
  exact taken _ _

/-- A trace in progress stands in ARMING. -/
theorem State.offline_of_trace {tr : ArmTrace} (tracing : s.trace = some tr) (mode : s.operationsMatch) :
    s.run.state.offline := .inr (mode.of_trace (by rw [tracing]; rfl)).1

theorem State.PreservesTokens.traceChunk {tr : ArmTrace} (tracing : s.trace = some tr) (result : ReadResult) :
    s.PreservesTokens (s.traceChunk tr result) := by
  have off := State.offline_of_trace tracing
  unfold State.traceChunk
  split
  · exact .of_offline (by simp [State.failTraceMemory]) off
  · split
    · exact .of_offline (by simp [State.failTraceField]) off
    · split
      · exact .of_offline (by simp [State.passTrace]) off
      · exact .of_offline (by simp) off

theorem State.PreservesTokens.traceReadDone : s.PreservesTokens s.traceReadDone := by
  unfold State.traceReadDone
  split
  · next read _ _ _ =>
    have feed := s.feed_readChunk read.chunk
    have done := State.Steady.readChunk s read.chunk
    split
    next t result e =>
      rw [e] at feed done
      dsimp only
      refine .after ((t.feed_endAccess .trace).trans feed) (done.trans (.of_footing (t.footing_endAccess .trace))) ?_
      generalize t.endAccess .trace = u
      split
      · next tr tracing _ => exact .traceChunk tracing result
      · exact (State.KeepsTokens.refl u).preserves
  · exact (State.KeepsTokens.refl s).preserves

theorem State.PreservesTokens.stopRun (port : Port) : s.PreservesTokens (s.stopRun port) := by
  unfold State.stopRun
  split
  · refine (State.KeepsTokens.trans (.setRunState s ?_) (.of_run rfl rfl)).preserves
    simp [RunState.offline]
  · exact (State.KeepsTokens.of_footing (by simp) (by simp)).preserves
  · split
    · exact (State.KeepsTokens.endWalk s _ _).preserves
    · exact (State.KeepsTokens.refl s).preserves
  · next arming => exact .of_offline (by simp [State.abortTrace]) fun _ => .inr arming
  · exact (State.KeepsTokens.refl s).preserves

/-- DISARM empties the queue and ends the split (R73). -/
theorem State.tokensLawful_takeDisarm (s : State) : s.takeDisarm.tokensLawful := by
  unfold State.takeDisarm
  extract_lets a queue seq b c
  have feed : c.feed = b.feed := by simp [c]
  obtain ⟨noIssued, noPrepared, noSplit⟩ : b.queue.issued = [] ∧ b.queue.prepared = [] ∧ b.seq.split = none := ⟨rfl, rfl, rfl⟩
  clear_value c b
  obtain ⟨-, issued, prepared, split, -⟩ :=
    State.feed_iff.mp (((State.feed_setRunState _ .idle).trans (State.feed_withRun _ _)).trans feed)
  exact State.tokensLawful_of_empty (issued.trans noIssued) (prepared.trans noPrepared) (split.trans noSplit)

theorem State.PreservesTokens.disarmRun : s.PreservesTokens s.disarmRun := by
  unfold State.disarmRun
  split
  case h_6 =>
    exact fun _ _ _ => State.KeepsTokens.tokensLawful
      (.of_footing (State.feed_reply _ _ _ _) (State.footing_reply _ _ _ _)) s.tokensLawful_takeDisarm
  all_goals exact (State.KeepsTokens.of_footing (by simp) (by simp)).preserves

/-- The constants are written in IDLE alone, where no token stands under the old M (R171). -/
theorem State.PreservesTokens.setConstants (c : ConstantsFrame) : s.PreservesTokens (s.setConstants c) := by
  have refused : ∀ code, s.PreservesTokens (s.refuse .p code) := fun code =>
    (State.KeepsTokens.of_footing (by simp) (by simp)).preserves
  unfold State.setConstants
  split
  · exact refused _
  · next idle =>
    split
    · exact refused _
    · split
      · exact refused _
      · rintro - - ⟨-, -, empty⟩
        obtain ⟨issued, prepared, split⟩ := empty (.inl (by simpa using idle))
        obtain ⟨z, zeroed, -⟩ := (s.withConstants (constantsOf c)).zeroCounts_eq
        rw [zeroed]
        exact State.tokensLawful_of_empty issued prepared split

/-! ### Every command -/

/-- Every command preserves the law of the tokens. -/
theorem exec_preservesTokens {c : Instr} {s t : State} (h : exec c s = .next t) : s.PreservesTokens t := by
  have keeps : ∀ {port : Port} {body : State → State}, (∀ u : State, u.KeepsTokens (body u)) →
      s.PreservesTokens (s.onFrame port body) := fun k => .onFrame fun u => (k u).preserves
  have replies : ∀ {port : Port} {code : State → ReplyCode} {payload : State → List Byte},
      s.PreservesTokens (s.onFrame port fun u => u.reply port (code u) (payload u)) :=
    keeps fun u => .of_footing (by simp) (by simp)
  cases c <;> cases h
  case openDesign slot len => exact keeps fun u => .openDesign slot len
  case writeRecords slot index records =>
    exact keeps fun u => .of_steady (u.feed_writeRecords slot index records) (.writeRecords u slot index records)
  case readRecords slot index count =>
    exact keeps fun u => .of_steady (u.feed_readRecords slot index count) (.readRecords u slot index count)
  case portStoreAccessDone => exact .onEvent (State.KeepsTokens.of_steady s.feed_portAccessDone (.portAccessDone s)).preserves
  case requestPauseExpiry r => exact .onEvent (State.KeepsTokens.of_footing (s.feed_endPause r) (s.footing_endPause r)).preserves
  case setColours slot first entries =>
    exact keeps fun u => .of_steady (u.feed_setColours slot first entries) (.setColours u slot first entries)
  case readColours slot first count =>
    refine keeps fun u => ?_
    unfold State.readColours
    exact .ite (.of_footing (by simp) (by simp)) (.ite (.of_footing (by simp) (by simp)) (.of_footing (by simp) (by simp)))
  case readSlot slot =>
    refine keeps fun u => ?_
    unfold State.readSlot
    exact .ite (.of_footing (by simp) (by simp)) (.of_footing (by simp) (by simp))
  case closeDesign slot => exact keeps fun u => .closeDesign slot
  case closeScanReadDone => exact .onEvent State.KeepsTokens.closeScanReadDone.preserves
  case delete slot => exact keeps fun u => .deleteSlot slot
  case keep slot on => exact keeps fun u => .of_steady (u.feed_keepSlot slot on) (.keepSlot u slot on)
  case clearFaultRecord => exact keeps fun u => .of_footing (by simp) (by simp)
  case arm => exact .onFrame fun u => .armRun _ _ _ _ _ _ _ _ _
  case traceReadDone => exact .onEvent .traceReadDone
  case start => exact keeps fun u => .startRun u
  case stop port =>
    exact .onFrame fun u => (State.PreservesTokens.stopRun port).trans
      (.of_footing (State.feed_reply _ _ _ _) (State.footing_reply _ _ _ _))
  case disarm => exact .onFrame fun u => .disarmRun
  case setSpeed value => exact keeps fun u => .of_run (by simp) rfl
  case readRun => exact replies
  case prepareTurn => exact .onEvent (.prepareOne s)
  case prepareReadDone => exact .onEvent (State.KeepsTokens.of_steady s.feed_prepareReadDone (.prepareReadDone s)).preserves
  case fetchMoves max => exact keeps fun u => .fetchMoves u max
  case done seq => exact keeps fun u => .doneReport u seq
  case stopped form seq => exact keeps fun u => .stoppedReport u form seq
  case walk mode n => exact keeps fun u => .walkRun u mode n
  case walkReadDone => exact .onEvent (State.KeepsTokens.walkReadDone s).preserves
  case repair => exact keeps fun u => .repairRun u
  case readRepairs first count =>
    refine keeps fun u => ?_
    unfold State.readRepairs
    exact .ite (.of_footing (by simp) (by simp)) (.of_footing (by simp) (by simp))
  case broadcastSent => exact .onEvent (State.KeepsTokens.of_footing s.feed_broadcastSent s.footing_broadcastSent).preserves
  case changeDeadline => exact .onEvent (State.KeepsTokens.changeDeadline s).preserves
  case setInhibit head needles =>
    exact keeps fun u => .of_footing (u.feed_setInhibit head needles) (u.footing_setInhibit head needles)
  case ringTransactionStart =>
    exact .onEvent (State.KeepsTokens.of_footing s.feed_ringTransactionStart s.footing_ringTransactionStart).preserves
  case ringAnswer e w => exact .onEvent (State.KeepsTokens.ringAnswer s e w).preserves
  case ringTimeout => exact .onEvent (State.KeepsTokens.ringTimeout s).preserves
  case ringStart => exact keeps fun u => .of_footing u.feed_startRing u.footing_startRing
  case headOff head => exact keeps fun u => .of_footing (u.feed_headOff head) (u.footing_headOff head)
  case headOn head => exact keeps fun u => .of_steady (u.feed_headOn head) (.headOn u head)
  case readHeads first count =>
    refine keeps fun u => ?_
    unfold State.readHeads
    exact .ite (.of_footing (by simp) (by simp)) (.of_footing (by simp) (by simp))
  case readEvents n =>
    refine keeps fun u => ?_
    unfold State.readEvents
    exact .ite (.of_footing (by simp) (by simp)) (.of_footing (by simp) (by simp))
  case setClass kind log attend =>
    refine keeps fun u => ?_
    unfold State.setClass
    exact .ite (.of_footing (by simp) (by simp)) (.of_footing (by simp) (by simp))
  case setTime value unit =>
    refine keeps fun u => ?_
    unfold State.setTime
    exact .ite (.of_footing (by simp) (by simp)) (.of_footing (by simp) (by simp))
  case timeTagTick => exact .onEvent (State.KeepsTokens.of_footing s.feed_timeTagTick s.footing_timeTagTick).preserves
  case setConstants record => exact .onFrame fun u => .setConstants record
  case readConstants => exact replies
  case readStatus port => exact replies
  case readPortErrors port => exact keeps fun u => .of_footing (by simp) (by simp)
  case nop port => exact replies
  case identify port => exact replies
  case frameError port error => exact keeps fun u => .of_footing (by simp) (by simp)
  case reset => exact fun _ _ _ => State.tokensLawful_of_empty rfl rfl rfl
  case frameAcceptReady => split <;> exact (State.KeepsTokens.of_run rfl rfl).preserves
  case storeBitChange chunk bits =>
    exact (State.KeepsTokens.of_steady (s.feed_storeBitChange chunk bits) (.storeBitChange s chunk bits)).preserves
  case chipSelectAssert port start =>
    exact (State.KeepsTokens.of_footing (s.feed_chipSelect port _ _) (s.footing_chipSelect port _ _)).preserves
  case resetRelease => split <;> exact (State.KeepsTokens.of_run rfl rfl).preserves

/-- Settles O59: a step idles, or carries out a command on the state with the rest of the queue. -/
theorem tokensStayLawful : Obligations.TokensStayLawful := by
  intro s t mode range h law
  unfold step at h
  split at h
  · cases h
    exact law
  · next c rest _ =>
    exact State.PreservesTokens.after (s.feed_withPending rest) (.of_footing (s.footing_withPending rest))
      (exec_preservesTokens h) mode range law

end Sys2Proof.Machine
end

section
/-! PROOF SUPPORT. What changes the heads and the Event Queue alone, folds over the heads one by one, several events posted one
after another, the run state written, and a change that starts with heads to confirm. -/

namespace Sys2Proof.Machine

open Sys2Proof

variable {s t u : State}

/-! ### Nothing changed but the heads, their requests and their entries -/

/-- The fields an operation on heads may change, named from the state it leaves. -/
theorem State.OnlyHeads.eq (h : s.OnlyHeads t) : t = { s with
    heads := t.heads, ring := { s.ring with requests := t.ring.requests }, repairs := t.repairs,
    run := { s.run with outstanding := t.run.outstanding } } :=
  calc
    t = { t.blankHeads with
        heads := t.heads, ring := { t.blankHeads.ring with requests := t.ring.requests }, repairs := t.repairs,
        run := { t.blankHeads.run with outstanding := t.run.outstanding } } := rfl
    _ = _ := by rw [show t.blankHeads = s.blankHeads from h]; rfl

/-- The state with the Event Queue blanked out too. -/
def State.blankFaults (s : State) : State := s.blankHeads.withEvents []

/-- Nothing changed but the heads, the request queue, the Repair List, the outstanding-repairs flag and the Event Queue. -/
def State.OnlyFaults (s t : State) : Prop := t.blankFaults = s.blankFaults

theorem State.OnlyFaults.refl (s : State) : s.OnlyFaults s := rfl

theorem State.OnlyFaults.trans (h : s.OnlyFaults t) (g : t.OnlyFaults u) : s.OnlyFaults u := Eq.trans g h

theorem State.OnlyHeads.onlyFaults (h : s.OnlyHeads t) : s.OnlyFaults t := congrArg (State.withEvents · []) h

theorem State.OnlyFaults.eq (h : s.OnlyFaults t) : t = { s with
    heads := t.heads, ring := { s.ring with requests := t.ring.requests }, repairs := t.repairs, events := t.events,
    run := { s.run with outstanding := t.run.outstanding } } :=
  calc
    t = { t.blankFaults with
        heads := t.heads, ring := { t.blankFaults.ring with requests := t.ring.requests }, repairs := t.repairs,
        events := t.events, run := { t.blankFaults.run with outstanding := t.run.outstanding } } := rfl
    _ = _ := by rw [show t.blankFaults = s.blankFaults from h]; rfl

theorem State.OnlyFaults.post (s : State) (k : EventKind) (head : Nat) (param : BitVec 32) :
    s.OnlyFaults (s.post k head param) := by
  obtain ⟨q, e⟩ := s.post_eq k head param
  rw [e]
  rfl

theorem State.OnlyFaults.skipOrPost (s : State) (h : Nat) : s.OnlyFaults (s.skipOrPost h) := by
  have skipped := (State.OnlyHeads.skipEntry s h).onlyFaults
  unfold State.skipOrPost
  split
  · next e => rw [e] at skipped; exact skipped
  · next e => rw [e] at skipped; exact skipped.trans (.post _ _ _ _)

theorem State.OnlyFaults.faultAction (s : State) (h : Nat) (cause : ThreadFault) : s.OnlyFaults (s.faultAction h cause) := by
  obtain ⟨r, q, l, o, v, e, -⟩ := s.faultAction_eq h cause
  rw [e]
  clear e
  cases s
  rfl

/-- An operation made for each element of a list keeps what each of them keeps. -/
theorem State.foldl_keeps {α : Type} {R : State → State → Prop} {f : State → α → State} (refl : ∀ t, R t t)
    (trans : ∀ {a b c}, R a b → R b c → R a c) (each : ∀ t x, R t (f t x)) (l : List α) (s : State) :
    R s (l.foldl f s) := by
  induction l generalizing s with
  | nil => exact refl s
  | cons x rest ih => exact trans (each s x) (ih _)

theorem State.OnlyHeads.foldl {α : Type} {f : State → α → State} (each : ∀ (t : State) x, t.OnlyHeads (f t x)) (l : List α)
    (s : State) : s.OnlyHeads (l.foldl f s) := State.foldl_keeps State.OnlyHeads.refl State.OnlyHeads.trans each l s

theorem State.OnlyFaults.foldl {α : Type} {f : State → α → State} (each : ∀ (t : State) x, t.OnlyFaults (f t x)) (l : List α)
    (s : State) : s.OnlyFaults (l.foldl f s) := State.foldl_keeps State.OnlyFaults.refl State.OnlyFaults.trans each l s

theorem State.OnlyFaults.placeAll (s : State) : s.OnlyFaults s.placeAll := by
  refine .foldl (fun t h => ?_) headNumbers s
  split
  · exact (State.OnlyHeads.setJoin t h none).onlyFaults
  · exact (State.OnlyHeads.setJoin t h none).onlyFaults
  · exact (State.OnlyHeads.setJoin t h none).onlyFaults
  · exact (State.OnlyHeads.placeHead t h).onlyFaults

/-! ### Heads visited one by one -/

theorem headNumbers_nodup : headNumbers.Nodup := by decide

theorem headNumbers_length : headNumbers.length = 24 := rfl

section visits

variable {f : State → Nat → State} {l : List Nat} {h : Nat}

/-- Heads that are not visited are left as they are. -/
theorem State.head_foldl_of_not_mem (other : ∀ t h g, g ≠ h → (f t h).head g = t.head g) (s : State) (out : h ∉ l) :
    (l.foldl f s).head h = s.head h := by
  induction l generalizing s with
  | nil => rfl
  | cons g rest ih =>
    rw [List.mem_cons, not_or] at out
    exact (ih (f s g) out.2).trans (other s g h out.1)

/-- A head visited once is found as it was, and left as its visit leaves it. -/
theorem State.head_foldl_of_mem (other : ∀ t h g, g ≠ h → (f t h).head g = t.head g) (s : State) (nodup : l.Nodup)
    (mem : h ∈ l) : ∃ pre post, l = pre ++ h :: post ∧ h ∉ pre ∧ h ∉ post ∧ (pre.foldl f s).head h = s.head h ∧
      (l.foldl f s).head h = (f (pre.foldl f s) h).head h := by
  obtain ⟨pre, post, rfl⟩ := List.append_of_mem mem
  have out : h ∉ pre ∧ h ∉ post := by
    rw [List.nodup_append] at nodup
    exact ⟨fun m => nodup.2.2 h m h List.mem_cons_self rfl, (List.nodup_cons.mp nodup.2.1).1⟩
  refine ⟨pre, post, rfl, out.1, out.2, State.head_foldl_of_not_mem other s out.1, ?_⟩
  rw [List.foldl_append, List.foldl_cons]
  exact State.head_foldl_of_not_mem other _ out.2

end visits

/-! ### Events posted one after another (R155, R157) -/

theorem State.post_classOf (s : State) (k : EventKind) (head : Nat) (param : BitVec 32) (code : Nat) :
    (s.post k head param).classOf code = s.classOf code := by
  obtain ⟨q, e⟩ := s.post_eq k head param
  rw [e]
  rfl

/-- An entry appended stands behind the newest entries there were, as far as the queue has room for both. -/
theorem appendEvent_suffix {q : List EventEntry} {l : List (EventKind × Nat × BitVec 32)} (e : EventEntry)
    (newest : l <:+ q.map fun e => (e.kind, e.head, e.param)) (room : l.length < 64) :
    l ++ [(e.kind, e.head, e.param)] <:+ (appendEvent q e).map fun e => (e.kind, e.head, e.param) := by
  unfold appendEvent
  split
  · rw [List.map_append]
    exact (List.suffix_append_inj_of_length_eq rfl).mpr ⟨newest, rfl⟩
  · next full =>
    have kept : l <:+ (q.drop 1).map fun e => (e.kind, e.head, e.param) := by
      refine List.suffix_of_suffix_length_le newest ((List.drop_suffix 1 q).map _) ?_
      have : Config.eventEntries = 64 := rfl
      rw [List.length_map, List.length_drop]
      omega
    split
    · next none =>
      rw [none, List.map_nil, List.suffix_nil] at kept
      rw [kept]
      exact List.suffix_refl _
    · next o rest more =>
      rw [more] at kept
      rw [List.map_append]
      exact (List.suffix_append_inj_of_length_eq rfl).mpr ⟨kept, rfl⟩

/-- Entries that are the newest stay so, with the entry of an event posted behind them. -/
theorem State.posted.post {l : List (EventKind × Nat × BitVec 32)} (newest : s.posted l) (room : l.length < 64)
    (k : EventKind) (head : Nat) (param : BitVec 32) : (s.post k head param).posted (l ++ [(k, head, param)]) := by
  intro logs
  have log : ∀ x ∈ l ++ [(k, head, param)], (s.classOf x.1.code).log = true := fun x mem => by
    rw [← s.post_classOf k head param]
    exact logs x mem
  have now := newest fun x mem => log x (List.mem_append_left _ mem)
  rw [State.post, State.postTarget_of_log s k head param none (log _ (List.mem_append_right _ (List.mem_singleton_self _)))]
  exact appendEvent_suffix
    { kind := k, head := head, param := param, cursor := s.run.cursor, time := s.timeTag.value, gap := false, target := none }
    now room

/-- What leaves the Event Queue and the class table leaves the newest entries. -/
theorem State.posted.congr {l : List (EventKind × Nat × BitVec 32)} (newest : s.posted l) (events : t.events = s.events)
    (classes : t.classes = s.classes) : t.posted l := by
  unfold State.posted State.classOf at newest ⊢
  rw [events, classes]
  exact newest

/-! ### The run state written (R66, R80) -/

/-- Out of RUNNING the Sequencer's chunk buffer is emptied and its read withdrawn. -/
theorem State.setRunState_of_running {v : RunState} (running : s.run.state = .running) (leaves : v ≠ .running) :
    ∃ a, s.setRunState v =
      ((s.withRun { s.run with state := v }).withSeq { s.seq with buffer := none }).withArbiter a := by
  obtain ⟨a, e⟩ := ((s.withRun { s.run with state := v }).withSeq { s.seq with buffer := none }).dropRead_eq .sequencer
  refine ⟨a, ?_⟩
  simp only [State.setRunState, running, leaves, ne_eq, not_false_eq_true, and_self, if_true, State.stopPreparing]
  exact e

end Sys2Proof.Machine
end

section
/-! PROOF SUPPORT. The start of a change with heads to confirm (R105, R106), and O25: START (R64). -/

namespace Sys2Proof.Machine

open Sys2Proof

variable {s : State}

/-! ### A change that starts (R105, R106) -/

/-- The change record a change starts with. -/
def State.newChange (s : State) (needle : Nat) (action : ChangeAction) : ChangeRecord :=
  { target := needle, action := action, selectionSent := false, deadline := none, listFull := false,
    confirm := headNumbers.filter fun h => s.present h }

/-- The state a change leaves before its broadcast is offered. -/
def State.changing (s : State) (needle : Nat) (action : ChangeAction) : State :=
  (s.withChange (some (s.newChange needle action))).setRunState .changing

theorem State.changing_eq (needle : Nat) (action : ChangeAction) : ∃ b a, s.changing needle action =
    (((s.withChange (some (s.newChange needle action))).withRun { s.run with state := .changing }).withSeq
      { s.seq with buffer := b }).withArbiter a :=
  State.setRunState_eq _ _

/-- A broadcast offered to a ring that is FULL or SPLIT stands in its queue (R126). -/
theorem State.mem_offer_broadcast {r : RingRequest} (broadcast : r.head = broadcastId)
    (up : s.ring.state = .full ∨ s.ring.state = .split) : r ∈ (s.offer r).ring.requests := by
  have may : s.mayQueue r = true := by
    rcases up with up | up <;> simp [State.mayQueue, up, broadcast]
  rw [State.offer, if_pos may]
  exact mem_coalesce r _

/-- A change that finds a head to confirm is not over at once: it waits with its broadcast queued. -/
theorem State.startChange_eq (needle : Nat) (action : ChangeAction) (some : ∃ h ∈ headNumbers, s.present h = true) :
    ∃ ring, s.startChange needle action = (s.changing needle action).withRing ring ∧
      ((s.ring.state = .full ∨ s.ring.state = .split) → ⟨.selectNeedle, 31, needle⟩ ∈ ring.requests) := by
  obtain ⟨h, mem, present⟩ := some
  obtain ⟨b, a, begun⟩ := s.changing_eq needle action
  let cleared := (s.changing needle action).withRing { s.ring with
    flight := s.ring.flight.map fun f => { f with afterSelection := false, ofChange := false } }
  let request : RingRequest := { function := .selectNeedle, head := broadcastId, data := needle }
  obtain ⟨q, offered⟩ := cleared.offer_eq request
  have confirms : ¬ (s.newChange needle action).confirm = [] :=
    List.ne_nil_of_mem (List.mem_filter.mpr ⟨mem, present⟩)
  have record : (cleared.offer request).change = .some (s.newChange needle action) := by
    rw [offered]
    exact congrArg State.change begun
  have started : s.startChange needle action = (cleared.offer request).settleChange := by
    have ring : (s.changing needle action).ring = s.ring := by rw [begun]; rfl
    simp only [cleared, ← ring]
    rfl
  refine ⟨(cleared.offer request).ring, ?_, fun up => State.mem_offer_broadcast rfl up⟩
  rw [started, State.settleChange, record]
  simp only [if_neg confirms]
  rw [offered]
  rfl

/-! ### START (R64) -/

theorem State.anyHead_eq_false (st : HeadState) : s.anyHead st = false ↔ ∀ h ∈ headNumbers, (s.head h).state ≠ st := by
  simp only [State.anyHead, List.any_eq_false, decide_eq_true_eq, ne_eq]

theorem State.present_of_state {h : Nat} {st : HeadState} (state : (s.head h).state = st) (absent : st ≠ .absent)
    (lost : st ≠ .lost) : s.present h = true := by
  simp only [State.present, state, ne_eq, absent, lost, not_false_eq_true, decide_true, Bool.and_self]

/-- START by its tests in order, its test of the heads as R64 words it. -/
theorem State.startRun_eq (s : State) : s.startRun =
    if s.run.state = .walking then s.refuse .p .busy
    else if s.run.state ≠ .armed ∧ s.run.state ≠ .paused then s.refuse .p .state
    else if ¬ ∃ h ∈ headNumbers, (s.head h).state = .active ∨ (s.head h).state = .waiting then s.refuse .p .noHeads
    else s.takeStart.reply .p .ok [] := by
  have heads : (s.anyHead .active = false ∧ s.anyHead .waiting = false) ↔
      ¬ ∃ h ∈ headNumbers, (s.head h).state = .active ∨ (s.head h).state = .waiting := by
    rw [State.anyHead_eq_false, State.anyHead_eq_false]
    push Not
    exact forall₂_and.symm
  simp only [State.startRun, heads]

/-- START with the machine needle that of the current colour block. -/
theorem State.takeStart_runs (still : s.run.state ≠ .running)
    (same : (s.colourEntry s.run.colourBlock).needle = s.run.needle) : s.takeStart =
      (s.withRun { s.run with state := .running, stopReason := .none }).withSeq
        { s.seq with ramp := s.constants.ramp } := by
  have started := (s.setStopReason .none).setRunState_of_not_running .running still
  refine (if_neg (not_not.mpr same)).trans ?_
  rw [started]
  rfl

/-- START with another machine needle, and a head to confirm the change. -/
theorem State.takeStart_changes (still : s.run.state ≠ .running) (present : ∃ h ∈ headNumbers, s.present h = true)
    (other : (s.colourEntry s.run.colourBlock).needle ≠ s.run.needle) : ∃ ring, s.takeStart =
      ((s.withRun { s.run with state := .changing, stopReason := .none }).withChange
        (some (s.newChange (s.colourEntry s.run.colourBlock).needle .resume))).withRing ring ∧
      ((s.ring.state = .full ∨ s.ring.state = .split) →
        ⟨.selectNeedle, 31, (s.colourEntry s.run.colourBlock).needle⟩ ∈ ring.requests) := by
  let t := s.setStopReason .none
  let needle := (s.colourEntry s.run.colourBlock).needle
  obtain ⟨ring, started, queued⟩ := State.startChange_eq (s := t) needle .resume present
  have entered := (t.withChange (some (t.newChange needle .resume))).setRunState_of_not_running .changing still
  exact ⟨ring, (if_pos other).trans (started.trans (congrArg (State.withRing · ring) entered)), queued⟩

/-- Settles O25: the tests one by one, then the two ways a START that is taken goes on. -/
theorem startRunsOrChanges : Obligations.StartRunsOrChanges := by
  refine fun s takes => ⟨_, rfl, ?_⟩
  refine State.refused_or takes s.framed.startRun_eq fun _ tested => ?_
  refine State.refused_or takes tested fun stands tested => State.refused_or takes tested fun heads taken => ?_
  have still : s.run.state ≠ .running := fun running => stands ⟨by rw [running]; nofun, by rw [running]; nofun⟩
  have present : ∃ h ∈ headNumbers, s.present h = true := by
    obtain ⟨h, mem, active | waiting⟩ := not_not.mp heads
    · exact ⟨h, mem, State.present_of_state active nofun nofun⟩
    · exact ⟨h, mem, State.present_of_state waiting nofun nofun⟩
  intro needle
  split
  · next same =>
    obtain ⟨ran, answers⟩ := State.replied_onFrame (body := State.startRun) takes
      (taken.trans (congrArg (State.reply · .p .ok []) (State.takeStart_runs (s := s.framed) still same))) rfl
    rw [ran]
    exact ⟨answers, rfl⟩
  · next other =>
    obtain ⟨ring, changes, queued⟩ := State.takeStart_changes (s := s.framed) still present other
    obtain ⟨ran, answers⟩ := State.replied_onFrame (body := State.startRun) takes
      (taken.trans (congrArg (State.reply · .p .ok []) changes)) rfl
    rw [ran]
    exact ⟨answers, rfl, rfl, rfl, queued⟩

end Sys2Proof.Machine
end

section
/-! PROOF SUPPORT. Frames on either port, the end of a walk (R99), and O26: STOP (R63, R65, R100). -/

namespace Sys2Proof.Machine

open Sys2Proof

variable {s t : State}

/-! ### Frames on either port (R164) -/

/-- The state in which the body of a frame that is taken runs. -/
def State.framedOn (s : State) (port : Port) : State := (s.loseReply port).closeFrame port

/-- Nothing but the ports and the arbiter differs there. -/
theorem State.framedOn_eq (s : State) (port : Port) :
    ∃ a p m, s.framedOn port = { s with arbiter := a, portP := p, portM := m } := by
  cases port <;> exact ⟨_, _, _, rfl⟩

/-- A reply placed changes nothing but the ports. -/
theorem State.reply_ports (s : State) (port : Port) (code : ReplyCode) (payload : List Byte) :
    ∃ p m, s.reply port code payload = { s with portP := p, portM := m } := by
  cases port <;> exact ⟨_, _, rfl⟩

/-- A frame that is taken and whose body ends in a reply leaves what the body leaves, and is answered. -/
theorem State.repliedOn {u : State} {port : Port} {body : State → State} {code : ReplyCode} {payload : List Byte}
    (takes : s.takesFrame port = true) (ran : body (s.framedOn port) = u.reply port code payload)
    (same : u.port port = (s.framedOn port).port port) :
    s.onFrame port body = u.reply port code payload ∧ s.answers (u.reply port code payload) port code payload := by
  refine ⟨(State.onFrame_taken s port body takes).trans ran, State.answers_reply code payload (same.trans ?_)⟩
  cases port <;> rfl

/-- A posted event that is the newest is the last of the queue, where its class logs it. -/
theorem State.posted.getLast? {k : EventKind} {head : Nat} {param : BitVec 32} (newest : s.posted [(k, head, param)])
    (log : (s.classOf k.code).log = true) :
    ∃ e, s.events.getLast? = some e ∧ e.kind = k ∧ e.head = head ∧ e.param = param := by
  obtain ⟨front, split⟩ := newest fun x mem => by rw [List.mem_singleton.mp mem]; exact log
  have last : (s.events.map fun e => (e.kind, e.head, e.param)).getLast? = some (k, head, param) := by
    rw [← split, List.getLast?_append, List.getLast?_singleton, Option.some_or]
  rw [List.getLast?_map, Option.map_eq_some_iff] at last
  obtain ⟨e, last, same⟩ := last
  obtain ⟨rfl, rfl, rfl⟩ := Prod.mk.injEq .. ▸ same
  exact ⟨e, last, rfl, rfl, rfl⟩

/-! ### The end of a walk (R99) -/

/-- A walk ends: its point is handed over, its heads are seen to, WALK_DONE is posted, an emptied pass is finished. -/
theorem State.endWalk_eq (s : State) (w : WalkRecord) (cause : WalkEnd) :
    ∃ u, ((s.dropRead .walk).takeWalk w).OnlyFaults u ∧
      s.endWalk w cause = (u.post .walkDone 0 (walkParam w.cursor cause)).finishEmptied w := by
  unfold State.endWalk
  extract_lets taken skipped placed
  refine ⟨placed, ?_, rfl⟩
  have skips : taken.OnlyFaults skipped := .foldl (fun t h => .skipOrPost t h) _ taken
  unfold placed
  split
  · exact skips
  · exact skips.trans (.placeAll skipped)

theorem State.finishEmptied_ports (s : State) (w : WalkRecord) :
    (s.finishEmptied w).portP = s.portP ∧ (s.finishEmptied w).portM = s.portM := by
  unfold State.finishEmptied
  split
  · obtain ⟨b, a, finished⟩ := s.setRunState_eq .finished
    obtain ⟨q, posts⟩ := (s.setRunState .finished).post_eq .repairDone 0 (BitVec.ofNat 32 (paramField 6 0 0))
    rw [State.finishRepair, State.postRepairDone, posts, finished]
    exact ⟨rfl, rfl⟩
  · exact ⟨rfl, rfl⟩

theorem State.endWalk_ports (s : State) (w : WalkRecord) (cause : WalkEnd) :
    (s.endWalk w cause).portP = s.portP ∧ (s.endWalk w cause).portM = s.portM := by
  obtain ⟨u, only, ended⟩ := s.endWalk_eq w cause
  obtain ⟨a, drops⟩ := s.dropRead_eq .walk
  obtain ⟨q, posts⟩ := u.post_eq .walkDone 0 (walkParam w.cursor cause)
  have ports := (u.post .walkDone 0 (walkParam w.cursor cause)).finishEmptied_ports w
  rw [← ended, posts, only.eq, drops] at ports
  exact ports

/-- What a walk leaves that ends with the Repair List of its pass not emptied meanwhile. -/
theorem State.endWalk_leaves {w : WalkRecord} (cause : WalkEnd) (listed : w.listEmptied = false) :
    (s.endWalk w cause).walk = none ∧
      (s.endWalk w cause).run = { s.run with
        cursor := w.cursor, design := w.design, colourBlock := w.colourBlock,
        state := if w.cursor = s.designLength then .finished else .paused,
        outstanding := (s.endWalk w cause).run.outstanding } ∧
      (s.endWalk w cause).seq = { s.seq with
        cursor := w.cursor, design := w.design, frame := s.run.frame, approach := true, split := none, halt := none,
        haltFlag := false, buffer := none } ∧
      (s.endWalk w cause).classes = s.classes ∧
      (s.endWalk w cause).posted [(.walkDone, 0, walkParam w.cursor cause)] := by
  obtain ⟨u, only, ended⟩ := s.endWalk_eq w cause
  have unfinished : ∀ v : State, v.finishEmptied w = v := fun v => if_neg fun emptied => by
    rw [listed] at emptied
    exact Bool.false_ne_true emptied.1
  rw [ended, unfinished]
  have posted := u.posted_post .walkDone 0 (walkParam w.cursor cause)
  obtain ⟨a, drops⟩ := s.dropRead_eq .walk
  obtain ⟨q, posts⟩ := u.post_eq .walkDone 0 (walkParam w.cursor cause)
  have taken := only.eq
  rw [drops] at taken
  refine ⟨?_, ?_, ?_, ?_, posted⟩ <;> rw [posts, taken] <;> rfl

/-! ### STOP (R63, R65, R100) -/

section stop

variable {port : Port}

theorem State.stopRun_running (running : s.run.state = .running) : ∃ a, s.stopRun port =
    ((s.withRun { s.run with state := .stopping, stopReason := stopReasonOf port }).withSeq
      { s.seq with buffer := none }).withArbiter a := by
  obtain ⟨a, stops⟩ := State.setRunState_of_running (v := .stopping) running nofun
  refine ⟨a, ?_⟩
  simp only [State.stopRun, running]
  rw [stops]
  rfl

theorem State.stopRun_changing (changing : s.run.state = .changing) : s.stopRun port =
    (s.withChange (s.change.map fun c => { c with action := .pause })).withRun
      { s.run with stopReason := stopReasonOf port } := by
  have stops : s.stopRun port = s.pauseChange.setStopReason (stopReasonOf port) := by simp only [State.stopRun, changing]
  exact stops

theorem State.stopRun_walking {w : WalkRecord} (walking : s.run.state = .walking) (walk : s.walk = some w) :
    s.stopRun port = s.endWalk w .stop := by
  simp only [State.stopRun, walking, walk]

/-- The trace aborted, its read dropped, the slot released and the run IDLE. -/
theorem State.stopRun_arming (arming : s.run.state = .arming) : ∃ a, s.stopRun port =
    (((s.withTrace none).withArbiter a).releaseSlot).withRun { s.run with state := .idle, armedSlot := none } := by
  obtain ⟨a, drops⟩ := (s.withTrace none).dropRead_eq .trace
  obtain ⟨q, released⟩ := ((s.withTrace none).withArbiter a).releaseSlot_eq
  refine ⟨a, ?_⟩
  have still : ((s.withTrace none).withArbiter a).releaseSlot.run.state ≠ .running := by
    rw [released]
    exact fun running => RunState.noConfusion (arming.symm.trans running)
  simp only [State.stopRun, arming, State.abortTrace]
  rw [drops, State.setRunState_of_not_running _ _ still, released]
  rfl

/-- STOP leaves both ports to its reply. -/
theorem State.stopRun_ports : (s.stopRun port).portP = s.portP ∧ (s.stopRun port).portM = s.portM := by
  by_cases running : s.run.state = .running
  · obtain ⟨a, e⟩ := State.stopRun_running (port := port) running
    rw [e]
    exact ⟨rfl, rfl⟩
  · unfold State.stopRun
    split
    · next now => exact absurd now running
    · exact ⟨rfl, rfl⟩
    · split
      · exact s.endWalk_ports _ _
      · exact ⟨rfl, rfl⟩
    · next arming =>
      obtain ⟨a, e⟩ := State.stopRun_arming (port := port) arming
      simp only [State.stopRun, arming] at e
      obtain ⟨q, released⟩ := ((s.withTrace none).withArbiter a).releaseSlot_eq
      rw [e, released]
      exact ⟨rfl, rfl⟩
    · exact ⟨rfl, rfl⟩

end stop

/-- Settles O26: what STOP does in each run state, read through its frame and its reply. -/
theorem stopActsByRunState : Obligations.StopActsByRunState := by
  intro s port takes
  let u := (s.framedOn port).stopRun port
  have ports : u.port port = (s.framedOn port).port port := by
    obtain ⟨portP, portM⟩ := State.stopRun_ports (s := s.framedOn port) (port := port)
    cases port
    · exact portP
    · exact portM
  obtain ⟨ran, answers⟩ := State.repliedOn (body := fun t => (t.stopRun port).reply port .ok []) takes rfl ports
  refine ⟨u.reply port .ok [], congrArg Host.Outcome.next ran, answers, ?_⟩
  obtain ⟨p, m, replied⟩ := u.reply_ports port .ok []
  obtain ⟨b, q, n, framed⟩ := s.framedOn_eq port
  have run : (s.framedOn port).run = s.run := by rw [framed]
  dsimp only
  split
  · next running =>
    obtain ⟨a, stops⟩ := State.stopRun_running (s := s.framedOn port) (port := port) (by rw [run]; exact running)
    rw [replied, show u = _ from stops, framed]
    exact ⟨by cases port <;> rfl, rfl, rfl, rfl, rfl⟩
  · next changing =>
    have stops := State.stopRun_changing (s := s.framedOn port) (port := port) (by rw [run]; exact changing)
    rw [replied, show u = _ from stops, framed]
    exact ⟨by cases port <;> rfl, rfl, rfl, rfl⟩
  · next walking =>
    intro w walk listed
    have stops := State.stopRun_walking (s := s.framedOn port) (port := port) (by rw [run]; exact walking)
      (by rw [framed]; exact walk)
    obtain ⟨noWalk, runs, seq, classes, posted⟩ := State.endWalk_leaves (s := s.framedOn port) .stop listed
    rw [← stops] at noWalk runs seq classes posted
    change u.walk = none at noWalk
    have length : (s.framedOn port).designLength = s.designLength := by rw [framed]; rfl
    have same : (s.framedOn port).classes = s.classes := by rw [framed]
    rw [run, length] at runs
    change u.run = _ at runs
    rw [run] at seq
    change u.seq = _ at seq
    rw [replied]
    dsimp only
    rw [runs, seq]
    refine ⟨noWalk, rfl, rfl, rfl, rfl, rfl, rfl, rfl, rfl, rfl, rfl, fun log => ?_⟩
    have logs : (u.classOf 23).log = true := by
      rw [← log]
      exact congrArg (fun c => (Table.get classAfterReset c 23).log) (classes.trans same)
    obtain ⟨e, last, kind, -, param⟩ := posted.getLast? logs
    exact ⟨e, last, kind, param.trans (walkParam_eq w.cursor .stop)⟩
  · next arming =>
    obtain ⟨a, stops⟩ := State.stopRun_arming (s := s.framedOn port) (port := port) (by rw [run]; exact arming)
    have slot := State.slot_releaseSlot (((s.framedOn port).withTrace none).withArbiter a)
    obtain ⟨slots, released⟩ := (((s.framedOn port).withTrace none).withArbiter a).releaseSlot_eq
    rw [replied, show u = _ from stops]
    refine ⟨?_, ?_, fun k armed => ?_, ?_⟩
    · rw [released]; rfl
    · rw [framed]; rfl
    · refine (slot k).trans ?_
      rw [framed]
      exact if_pos armed
    · rw [released, framed]; rfl
  · next notRunning notChanging notWalking notArming =>
    have stops : u = s.framedOn port := by
      unfold u State.stopRun
      rw [run]
      split
      · next now => exact absurd now notRunning
      · next now => exact absurd now notChanging
      · next now => exact absurd now notWalking
      · next now => exact absurd now notArming
      · rfl
    have only := (State.answered_onFrame (body := fun t => (t.stopRun port).reply port .ok []) takes
      (congrArg (State.reply · port .ok []) stops)).1
    rw [ran] at only
    exact only

end Sys2Proof.Machine
end

section
/-! PROOF SUPPORT. Heads that change their state, what operations on heads leave to be read, and O27: DISARM (R73). -/

namespace Sys2Proof.Machine

open Sys2Proof

variable {s t : State}

/-! ### What operations on heads leave to be read -/

theorem State.OnlyHeads.run (h : s.OnlyHeads t) : t.run = { s.run with outstanding := t.run.outstanding } :=
  congrArg State.run h.eq

theorem State.OnlyHeads.cursor (h : s.OnlyHeads t) : t.run.cursor = s.run.cursor :=
  (congrArg RunRecord.cursor h.run).trans rfl

theorem State.OnlyHeads.pass (h : s.OnlyHeads t) : t.run.pass = s.run.pass :=
  (congrArg RunRecord.pass h.run).trans rfl

theorem State.OnlyHeads.barred (h : s.OnlyHeads t) (g : Nat) : t.barred g = s.barred g := by
  have needle : t.run.needle = s.run.needle := (congrArg RunRecord.needle h.run).trans rfl
  have inhibit : t.inhibit = s.inhibit := (congrArg State.inhibit h.eq).trans rfl
  rw [State.barred, State.barred, State.inhibitRow, State.inhibitRow, needle, inhibit]

/-! ### One head changes its state (R134) -/

/-- The record of a head whose state changes: the state and the cause, and counts begun anew where it becomes ACTIVE. -/
theorem State.head_setHeadState_same (s : State) (h : Nat) (st : HeadState) (cause : Option HeadCause) :
    (s.setHeadState h st cause).head h =
      if st = .active then s.freshCounts { s.head h with state := st, cause := cause }
      else { s.head h with state := st, cause := cause } := by
  obtain ⟨q, e⟩ := (s.putHead h (if st = .active then s.freshCounts { s.head h with state := st, cause := cause }
    else { s.head h with state := st, cause := cause })).offerState_eq h st
  rw [State.setHeadState, e]
  exact (s.head_putHead h h _).trans (if_pos rfl)

theorem State.head_setHeadState_other (s : State) {h g : Nat} (st : HeadState) (cause : Option HeadCause) (other : g ≠ h) :
    (s.setHeadState h st cause).head g = s.head g := (s.head_setHeadState h g st cause).2.2 other

theorem State.repairs_setHeadState (s : State) (h : Nat) (st : HeadState) (cause : Option HeadCause) :
    (s.setHeadState h st cause).repairs = s.repairs := by
  obtain ⟨r, q, e, -⟩ := s.setHeadState_eq h st cause
  rw [e]
  rfl

/-! ### Heads returned to sewing (R73, R134) -/

/-- DISARM returns one head to sewing, or leaves it. -/
def State.disarmHead (s : State) (h : Nat) : State := if s.disarmReturns h then s.setHeadState h .active none else s

theorem State.returnHeads_eq (s : State) : s.returnHeads = headNumbers.foldl State.disarmHead s := rfl

theorem State.OnlyHeads.disarmHead (s : State) (h : Nat) : s.OnlyHeads (s.disarmHead h) := by
  unfold State.disarmHead
  split
  · exact .setHeadState s h _ _
  · exact .refl s

theorem State.OnlyHeads.returnHeads (s : State) : s.OnlyHeads s.returnHeads :=
  .foldl State.OnlyHeads.disarmHead headNumbers s

theorem State.head_disarmHead_other (s : State) (h g : Nat) (other : g ≠ h) : (s.disarmHead h).head g = s.head g := by
  unfold State.disarmHead
  split
  · exact s.head_setHeadState_other _ _ other
  · rfl

theorem State.repairs_returnHeads (s : State) : s.returnHeads.repairs = s.repairs := by
  refine State.foldl_keeps (R := fun s t => t.repairs = s.repairs) (fun _ => rfl) (fun h g => g.trans h) (fun t h => ?_)
    headNumbers s
  split
  · exact t.repairs_setHeadState h _ _
  · rfl

/-- Each head as its own state and the inhibit matrix have it, whatever was done to the heads before it. -/
theorem State.head_returnHeads (s : State) {h : Nat} (mem : h ∈ headNumbers) : s.returnHeads.head h =
    if s.disarmReturns h then s.freshCounts { s.head h with state := .active, cause := none } else s.head h := by
  obtain ⟨pre, post, -, -, -, found, left⟩ :=
    State.head_foldl_of_mem State.head_disarmHead_other s headNumbers_nodup mem
  have before : s.OnlyHeads (pre.foldl State.disarmHead s) := .foldl State.OnlyHeads.disarmHead pre s
  have returns : (pre.foldl State.disarmHead s).disarmReturns h = s.disarmReturns h := by
    rw [State.disarmReturns, State.disarmReturns, found, before.barred]
  rw [State.returnHeads_eq, left, State.disarmHead, returns]
  split
  · rw [State.head_setHeadState_same, if_pos rfl, found, State.freshCounts, State.freshCounts, before.cursor, before.pass]
  · exact found

theorem State.disarmReturns_iff (s : State) (h : Nat) : s.disarmReturns h = true ↔
    ((s.head h).state = .heldFault ∨ (s.head h).state = .resting ∨ (s.head h).state = .waiting ∨
      (s.head h).state = .heldNeedle) ∧ s.barred h = false := by
  simp only [State.disarmReturns, Bool.and_eq_true, Bool.or_eq_true, decide_eq_true_eq, Bool.not_eq_true', or_assoc]

/-! ### DISARM (R73) -/

/-- The trace of a run that is ARMING is gone, and its read withdrawn (R63). -/
def State.untraced (s : State) : State := if s.run.state = .arming then (s.withTrace none).dropRead .trace else s

/-- DISARM up to its third step: the trace gone, the queue, what was being prepared and the Repair List emptied. -/
def State.unloaded (s : State) : State :=
  let a := s.untraced
  ((a.withQueue { a.queue with issued := [], prepared := [] }).withSeq
    { a.seq with haltFlag := false, split := none, halt := none, approach := false }).setRepairs []

/-- DISARM's last steps: the slot released, and the run record put back to IDLE. -/
def State.disarmed (s : State) : State :=
  let c := s.releaseSlot
  (c.withRun { c.run with pass := .main, outstanding := false, faultChunk := none }).setRunState .idle

theorem State.takeDisarm_steps (s : State) : s.takeDisarm = s.unloaded.returnHeads.disarmed := by
  simp only [State.takeDisarm, State.disarmed, State.unloaded, State.untraced]

theorem State.untraced_eq (s : State) : ∃ a, s.untraced =
    (s.withArbiter a).withTrace (if s.run.state = .arming then none else s.trace) := by
  obtain ⟨a, drops⟩ := (s.withTrace none).dropRead_eq .trace
  by_cases arming : s.run.state = .arming
  · simp only [State.untraced, arming, if_true, drops]
    exact ⟨a, rfl⟩
  · simp only [State.untraced, arming, if_false]
    exact ⟨s.arbiter, rfl⟩

theorem State.unloaded_eq (s : State) : ∃ a, s.unloaded = { s with
    arbiter := a, trace := if s.run.state = .arming then none else s.trace,
    queue := { s.queue with issued := [], prepared := [] },
    seq := { s.seq with haltFlag := false, split := none, halt := none, approach := false }, repairs := [],
    run := { s.run with outstanding := false } } := by
  obtain ⟨a, untraced⟩ := s.untraced_eq
  refine ⟨a, ?_⟩
  simp only [State.unloaded, State.setRepairs_eq, if_true, untraced, sortEntries, State.withArbiter, State.withTrace,
    State.withQueue, State.withSeq, State.withRepairs, State.withRun]

theorem State.disarmed_eq (still : s.run.state ≠ .running) : ∃ q, s.disarmed = (s.withSlots q).withRun
      { s.run with state := .idle, armedSlot := none, pass := .main, outstanding := false, faultChunk := none } ∧
    ∀ k, s.disarmed.slot k = if s.run.armedSlot = some k then { s.slot k with armed := false } else s.slot k := by
  obtain ⟨q, released⟩ := s.releaseSlot_eq
  have slot := s.slot_releaseSlot
  have ends : s.disarmed = (s.withSlots q).withRun
      { s.run with state := .idle, armedSlot := none, pass := .main, outstanding := false, faultChunk := none } := by
    simp only [State.disarmed, released]
    exact State.setRunState_of_not_running _ .idle still
  rw [released] at slot
  exact ⟨q, ends, fun k => by rw [ends]; exact slot k⟩

/-- What a DISARM that is taken leaves. -/
theorem State.takeDisarm_eq (still : s.run.state ≠ .running) : ∃ a r q, s.takeDisarm = { s with
      arbiter := a, trace := if s.run.state = .arming then none else s.trace,
      queue := { s.queue with issued := [], prepared := [] },
      seq := { s.seq with haltFlag := false, split := none, halt := none, approach := false },
      heads := s.unloaded.returnHeads.heads, ring := r, repairs := [], slots := q,
      run := { s.run with state := .idle, armedSlot := none, pass := .main, outstanding := false, faultChunk := none } } ∧
    (∀ k, s.takeDisarm.slot k = if s.run.armedSlot = some k then { s.slot k with armed := false } else s.slot k) := by
  obtain ⟨a, unloaded⟩ := s.unloaded_eq
  have returned := (State.OnlyHeads.returnHeads s.unloaded).eq
  rw [State.repairs_returnHeads] at returned
  rw [State.takeDisarm_steps]
  generalize s.unloaded.returnHeads = u at returned ⊢
  rw [unloaded] at returned
  dsimp only at returned
  have run : u.run = { s.run with outstanding := u.run.outstanding } := by rw [returned]
  have slots : u.slots = s.slots := by rw [returned]
  obtain ⟨q, disarmed, slot⟩ := State.disarmed_eq (s := u) (by rw [run]; exact still)
  refine ⟨a, { s.ring with requests := u.ring.requests }, q, ?_, fun k => ?_⟩
  · rw [disarmed]
    exact congrArg (fun v : State => (v.withSlots q).withRun { v.run with
      state := .idle, armedSlot := none, pass := .main, outstanding := false, faultChunk := none }) returned
  · rw [slot, run, State.slot_congr slots]

/-- DISARM by its one test. -/
theorem State.disarmRun_eq (s : State) : s.disarmRun =
    if s.run.state = .idle ∨ s.run.state = .running ∨ s.run.state = .stopping ∨ s.run.state = .changing ∨
      s.run.state = .walking then s.refuse .p .state else s.takeDisarm.reply .p .ok [] := by
  unfold State.disarmRun
  cases s.run.state <;> simp only [reduceCtorEq, or_self, or_false, or_true, if_true, if_false]

/-- What DISARM sees of the heads is what stood before it. -/
theorem State.head_unloaded (s : State) (h : Nat) : s.unloaded.head h = s.head h := by
  obtain ⟨a, e⟩ := s.unloaded_eq
  rw [e]
  rfl

theorem State.barred_unloaded (s : State) (h : Nat) : s.unloaded.barred h = s.barred h := by
  obtain ⟨a, e⟩ := s.unloaded_eq
  rw [e]
  rfl

theorem State.cursor_unloaded (s : State) : s.unloaded.run.cursor = s.run.cursor := by
  obtain ⟨a, e⟩ := s.unloaded_eq
  rw [e]

/-- Settles O27: its one test, the record DISARM leaves, then each head. -/
theorem disarmReleasesRun : Obligations.DisarmReleasesRun := by
  refine fun s takes => ⟨_, rfl, State.refused_or takes s.framed.disarmRun_eq fun stands taken => ?_⟩
  have still : s.run.state ≠ .running := fun running => stands (.inr (.inl running))
  obtain ⟨a, r, q, left, slot⟩ := State.takeDisarm_eq (s := s.framed) still
  obtain ⟨ran, answers⟩ := State.replied_onFrame (body := State.disarmRun) (u := s.framed.takeDisarm) takes taken
    (by rw [left])
  rw [ran]
  generalize s.framed.takeDisarm = d at left slot answers ⊢
  generalize returned : s.framed.unloaded.returnHeads.heads = heads at left
  have slots : ∀ k, (d.reply .p .ok []).slot k = d.slot k := State.slot_congr rfl
  refine ⟨answers, ?_, ?_, ?_, ?_, ?_, fun k armed => ?_, fun k other => ?_, fun arming => ?_, fun h mem => ?_⟩
  · rw [left]; rfl
  · rw [left]; rfl
  · rw [left]; rfl
  · rw [left]; rfl
  · rw [left]; rfl
  · rw [slots, slot]
    exact if_pos armed
  · rw [slots, slot]
    exact if_neg other
  · rw [left]
    exact if_pos arming
  · have head : (d.reply .p .ok []).head h = s.framed.unloaded.returnHeads.head h := by
      rw [left]
      exact congrArg (Table.get (fun _ => HeadRecord.reset) · h) returned.symm
    have returns := s.framed.unloaded.disarmReturns_iff h
    have cursor := s.framed.cursor_unloaded
    rw [State.head_unloaded, State.barred_unloaded] at returns
    rw [head, State.head_returnHeads _ mem, State.head_unloaded]
    split
    · next held => rw [if_pos (returns.mpr held)]; exact ⟨rfl, rfl, rfl, rfl, cursor⟩
    · next kept => rw [if_neg fun back => kept (returns.mp back)]; rfl

end Sys2Proof.Machine
end

section
/-! PROOF SUPPORT. What the resolution of a halt and every run state after a report keep: the executed point, the queue, the
Sequencer rolled back and the port of the motion processor. -/

namespace Sys2Proof.Machine

open Sys2Proof

variable {s t u : State}

/-! ### The point kept -/

/-- The queue, the executed point, the Sequencer but for its ramp count and its buffer, and port M. -/
def State.point (s : State) : PortState × MoveQueue × Nat × Point × Point × Sequencer :=
  (s.portM, s.queue, s.run.cursor, s.run.design, s.run.frame, { s.seq with ramp := 0, buffer := none })

/-- The point stands, and an empty chunk buffer stays empty. -/
structure State.KeepsPoint (s t : State) : Prop where
  point : t.point = s.point
  buffer : s.seq.buffer = none → t.seq.buffer = none

theorem State.KeepsPoint.refl (s : State) : s.KeepsPoint s := ⟨rfl, id⟩

theorem State.KeepsPoint.trans (h : s.KeepsPoint t) (g : t.KeepsPoint u) : s.KeepsPoint u :=
  ⟨g.point.trans h.point, g.buffer ∘ h.buffer⟩

theorem State.point_iff : t.point = s.point ↔ t.portM = s.portM ∧ t.queue = s.queue ∧ t.run.cursor = s.run.cursor ∧
    t.run.design = s.run.design ∧ t.run.frame = s.run.frame ∧
    t.seq = { s.seq with ramp := t.seq.ramp, buffer := t.seq.buffer } := by
  have seq : ({ t.seq with ramp := 0, buffer := none } : Sequencer) = { s.seq with ramp := 0, buffer := none } ↔
      t.seq = { s.seq with ramp := t.seq.ramp, buffer := t.seq.buffer } := by
    refine ⟨fun same => ?_, fun same => ?_⟩
    · exact congrArg (fun q : Sequencer => { q with ramp := t.seq.ramp, buffer := t.seq.buffer }) same
    · exact congrArg (fun q : Sequencer => { q with ramp := 0, buffer := none }) same
  simp only [State.point, Prod.mk.injEq, seq]

theorem State.KeepsPoint.of_onlyHeads (h : s.OnlyHeads t) : s.KeepsPoint t := by
  have blank : t.blankHeads = s.blankHeads := h
  have point : t.blankHeads.point = s.blankHeads.point := by rw [blank]
  have seq : t.blankHeads.seq = s.blankHeads.seq := by rw [blank]
  exact ⟨point, (congrArg Sequencer.buffer seq).trans⟩

theorem State.KeepsPoint.post (s : State) (k : EventKind) (head : Nat) (param : BitVec 32) :
    s.KeepsPoint (s.post k head param) := by
  obtain ⟨q, e⟩ := s.post_eq k head param
  rw [e]
  exact ⟨rfl, id⟩

theorem State.KeepsPoint.setStopReason (s : State) (r : StopReason) : s.KeepsPoint (s.setStopReason r) := ⟨rfl, id⟩

theorem State.KeepsPoint.withChange (s : State) (c : Option ChangeRecord) : s.KeepsPoint (s.withChange c) := ⟨rfl, id⟩

theorem State.KeepsPoint.setRunState (s : State) (v : RunState) : s.KeepsPoint (s.setRunState v) := by
  by_cases leaves : s.run.state = .running ∧ v ≠ .running
  · obtain ⟨a, e⟩ := State.setRunState_of_running leaves.1 leaves.2
    rw [e]
    exact ⟨rfl, fun _ => rfl⟩
  · rw [State.setRunState, if_neg leaves]
    exact ⟨rfl, id⟩

/-- Both outcomes of a test keeping the point, so does the test. -/
theorem State.KeepsPoint.ite {p : Prop} [Decidable p] (h : s.KeepsPoint t) (g : s.KeepsPoint u) :
    s.KeepsPoint (if p then t else u) := by
  split
  · exact h
  · exact g

/-! ### Colour changes (chapter 7) -/

theorem State.KeepsPoint.resumeDecision (s : State) (action : ChangeAction) (full : Option Nat) :
    s.KeepsPoint (s.resumeDecision action full) := by
  have pauses : ∀ (r : StopReason) (k : EventKind) (head : Nat) (param : BitVec 32),
      s.KeepsPoint (((s.setRunState .paused).setStopReason r).post k head param) := fun r k head param =>
    ((State.KeepsPoint.setRunState s .paused).trans (.setStopReason _ r)).trans (.post _ k head param)
  have goes : s.KeepsPoint ((s.setRunState .running).withSeq { s.seq with ramp := s.constants.ramp }) := by
    obtain ⟨b, a, e⟩ := s.setRunState_eq .running
    rw [e]
    exact ⟨rfl, id⟩
  unfold State.resumeDecision
  refine .ite (pauses _ _ _ _) ?_
  split
  · exact pauses _ _ _ _
  · split
    · exact goes
    · exact goes
    · exact pauses _ _ _ _
    · exact (State.KeepsPoint.setRunState s .paused).trans (.post _ _ _ _)

theorem State.KeepsPoint.completeChange (s : State) (c : ChangeRecord) : s.KeepsPoint (s.completeChange c) := by
  rw [State.completeChange_eq]
  have settled : s.KeepsPoint (s.settledNeedle c) := ⟨rfl, id⟩
  refine (settled.trans (.of_onlyHeads (.inhibitCheck _ headNumbers))).trans ?_
  unfold State.concludeChange
  exact (((State.KeepsPoint.withChange _ _).trans (.resumeDecision _ _ _)).trans (.post _ _ _ _)).trans (.withChange _ _)

theorem State.KeepsPoint.settleChange (s : State) : s.KeepsPoint s.settleChange := by
  unfold State.settleChange
  split
  · exact .ite (.completeChange s _) (.refl s)
  · exact .refl s

theorem State.KeepsPoint.startChange (s : State) (needle : Nat) (action : ChangeAction) :
    s.KeepsPoint (s.startChange needle action) := by
  unfold State.startChange
  extract_lets record begun source cleared
  have entered : s.KeepsPoint begun := (State.KeepsPoint.withChange s _).trans (.setRunState _ _)
  obtain ⟨q, offered⟩ := cleared.offer_eq { function := .selectNeedle, head := broadcastId, data := needle }
  have queued : begun.KeepsPoint (cleared.offer { function := .selectNeedle, head := broadcastId, data := needle }) := by
    rw [offered]
    exact ⟨rfl, id⟩
  exact (entered.trans queued).trans (.settleChange _)

/-! ### Halts and stops (chapters 4 and 5) -/

theorem State.KeepsPoint.finishRepair (s : State) : s.KeepsPoint s.finishRepair :=
  (State.KeepsPoint.setRunState s .finished).trans (.post _ _ _ _)

theorem State.KeepsPoint.enterFault (s : State) : s.KeepsPoint s.enterFault := by
  unfold State.enterFault
  refine State.KeepsPoint.trans ?_ (.post _ _ _ _)
  refine (State.KeepsPoint.setRunState s .fault).trans ?_
  split
  · next k _ =>
    obtain ⟨q, e⟩ := (s.setRunState .fault).damageSlot_eq k
    rw [e]
    exact ⟨rfl, id⟩
  · exact .refl _

theorem State.KeepsPoint.finishAtEnd (s : State) (running : Bool) : s.KeepsPoint (s.finishAtEnd running) := by
  unfold State.finishAtEnd
  extract_lets trimmed t u v record w
  have trims : s.KeepsPoint trimmed := by
    unfold trimmed
    split
    · exact .refl s
    · exact .of_onlyHeads (.setRepairs s _)
  have ends : s.KeepsPoint w :=
    ((trims.trans (.setRunState _ _)).trans (.ite (.setStopReason _ _) (.refl _))).trans
      ((State.KeepsPoint.post u _ _ _).trans ⟨rfl, id⟩)
  split
  · exact ends
  · exact ends.trans (.post _ _ _ _)

theorem State.OnlyHeads.joinHead (s : State) (h : Nat) : s.OnlyHeads (s.joinHead h) := by
  unfold State.joinHead
  split
  · split
    · exact (State.OnlyHeads.changeHead s h _ _).trans (.skipEntry _ h)
    · exact (State.OnlyHeads.changeHead s h _ _).trans (.setRepairs _ _)
  · exact .refl s

theorem State.OnlyHeads.joinHeads (s : State) : s.OnlyHeads s.joinHeads :=
  .foldl State.OnlyHeads.joinHead headNumbers s

theorem State.KeepsPoint.haltOutcome (s : State) (k : Token) (running : Bool) : s.KeepsPoint (s.haltOutcome k running) := by
  have joined := State.KeepsPoint.of_onlyHeads (State.OnlyHeads.joinHeads s)
  unfold State.haltOutcome
  split
  · exact .startChange s _ _
  · exact (State.KeepsPoint.setRunState s .paused).trans
      ((State.KeepsPoint.ite (.setStopReason _ _) (.refl _)).trans (.post _ _ _ _))
  · exact .finishAtEnd s running
  · exact .ite joined ((joined.trans (.setRunState _ _)).trans (.post _ _ _ _))
  · exact .refl s

/-- The state in which a halt is resolved: the halt flag cleared (R70). -/
def State.unhalted (s : State) : State := s.withSeq { s.seq with haltFlag := false }

section resolve

variable (k : Token)

theorem State.resolveHalt_running (running : s.run.state = .running) :
    s.resolveHalt k = s.unhalted.haltOutcome k true := by
  simp only [State.resolveHalt, State.withSeq_run, running]
  rfl

theorem State.resolveHalt_memory (stopping : s.run.state = .stopping) (memory : s.run.stopReason = .memory) :
    s.resolveHalt k = s.unhalted.enterFault := by
  simp only [State.resolveHalt, State.withSeq_run, stopping, memory, if_true]
  rfl

theorem State.resolveHalt_repairDone (stopping : s.run.state = .stopping) (done : s.run.stopReason = .repairDone) :
    s.resolveHalt k = s.unhalted.finishRepair := by
  simp only [State.resolveHalt, State.withSeq_run, stopping, done, reduceCtorEq, if_true, if_false]
  rfl

theorem State.resolveHalt_stopping (stopping : s.run.state = .stopping) (memory : s.run.stopReason ≠ .memory)
    (done : s.run.stopReason ≠ .repairDone) : s.resolveHalt k = s.unhalted.haltOutcome k false := by
  simp only [State.resolveHalt, State.withSeq_run, stopping, memory, done, if_false]
  rfl

theorem State.resolveHalt_other (running : s.run.state ≠ .running) (stopping : s.run.state ≠ .stopping) :
    s.resolveHalt k = s.unhalted := by
  unfold State.resolveHalt
  dsimp only
  split
  · next now => exact absurd now running
  · next now => exact absurd now stopping
  · rfl

/-- A halt resolved keeps the point, its halt flag cleared. -/
theorem State.KeepsPoint.resolveHalt : s.unhalted.KeepsPoint (s.resolveHalt k) := by
  by_cases running : s.run.state = .running
  · rw [State.resolveHalt_running k running]
    exact .haltOutcome _ k true
  by_cases stopping : s.run.state = .stopping
  · by_cases memory : s.run.stopReason = .memory
    · rw [State.resolveHalt_memory k stopping memory]
      exact .enterFault _
    by_cases done : s.run.stopReason = .repairDone
    · rw [State.resolveHalt_repairDone k stopping done]
      exact .finishRepair _
    rw [State.resolveHalt_stopping k stopping memory done]
    exact .haltOutcome _ k false
  rw [State.resolveHalt_other k running stopping]
  exact .refl _

theorem State.resolveHalt_haltFlag : (s.resolveHalt k).seq.haltFlag = false := by
  obtain ⟨-, -, -, -, -, seq⟩ := State.point_iff.mp (State.KeepsPoint.resolveHalt (s := s) k).point
  rw [seq]
  rfl

end resolve

theorem State.KeepsPoint.stoppedOutcome (s : State) : s.KeepsPoint s.stoppedOutcome := by
  have pauses : ∀ u : State, u.KeepsPoint u.postStopped := fun u => .post u _ _ _
  unfold State.stoppedOutcome
  split
  · exact .ite (.enterFault s) (.ite (.finishRepair s) ((State.KeepsPoint.setRunState s .paused).trans (pauses _)))
  · exact ((State.KeepsPoint.setRunState s .paused).trans (.setStopReason _ _)).trans (pauses _)
  · exact .refl s

end Sys2Proof.Machine
end

section
/-! PROOF SUPPORT. The outcomes of a halt one by one (R70 to R72, R105, R150, R153), and O36. -/

namespace Sys2Proof.Machine

open Sys2Proof

variable {s t : State}

/-! ### Events of halts (R156) -/

theorem paramField_low (w n : Nat) : paramField w 0 n = n % 2 ^ w := by
  rw [paramField, Nat.pow_zero, Nat.mul_one]

theorem indexParam_eq (n : Nat) : indexParam n = BitVec.ofNat 32 (n % 2 ^ 18) := by rw [indexParam, paramField_low]

theorem chunkParam_low (n : Nat) : chunkParam n = BitVec.ofNat 32 (n % 2 ^ 16) := by rw [chunkParam, paramField_low]

theorem State.posted_postStopped (s : State) :
    s.postStopped.posted [(.runStopped, 0, BitVec.ofNat 32 (s.run.stopReason.code % 16))] := by
  rw [State.postStopped, paramField_low]
  exact s.posted_post _ _ _

theorem State.posted_postRepairDone (s : State) (left : Nat) :
    (s.postRepairDone left).posted [(.repairDone, 0, BitVec.ofNat 32 (left % 64))] := by
  rw [State.postRepairDone, paramField_low]
  exact s.posted_post _ _ _

theorem State.post_run (s : State) (k : EventKind) (head : Nat) (param : BitVec 32) :
    (s.post k head param).run = s.run := by
  obtain ⟨q, e⟩ := s.post_eq k head param
  rw [e]
  rfl

theorem State.post_slots (s : State) (k : EventKind) (head : Nat) (param : BitVec 32) :
    (s.post k head param).slots = s.slots := by
  obtain ⟨q, e⟩ := s.post_eq k head param
  rw [e]
  rfl

theorem State.post_repairs (s : State) (k : EventKind) (head : Nat) (param : BitVec 32) :
    (s.post k head param).repairs = s.repairs := by
  obtain ⟨q, e⟩ := s.post_eq k head param
  rw [e]
  rfl

theorem State.setRunState_run (s : State) (v : RunState) : (s.setRunState v).run = { s.run with state := v } := by
  obtain ⟨b, a, e⟩ := s.setRunState_eq v
  rw [e]
  rfl

theorem State.setRunState_slots (s : State) (v : RunState) : (s.setRunState v).slots = s.slots := by
  obtain ⟨b, a, e⟩ := s.setRunState_eq v
  rw [e]
  rfl

theorem State.setRunState_repairs (s : State) (v : RunState) : (s.setRunState v).repairs = s.repairs := by
  obtain ⟨b, a, e⟩ := s.setRunState_eq v
  rw [e]
  rfl

/-! ### PAUSE, FAULT, REPAIR_DONE (R70, R72, R153) -/

section outcomes

variable {k : Token} {running : Bool}

theorem State.haltOutcome_pause (reason : k.reason = some .pause) :
    (s.haltOutcome k running).run = { s.run with
      state := .paused, stopReason := if running then .pause else s.run.stopReason } ∧
    (s.haltOutcome k running).posted [(.pauseRecord, 0, BitVec.ofNat 32 (k.index % 2 ^ 18))] := by
  have outcome : s.haltOutcome k running =
      (if running then (s.setRunState .paused).setStopReason .pause else s.setRunState .paused).post
        .pauseRecord 0 (indexParam k.index) := by
    simp only [State.haltOutcome, reason]
  rw [outcome, State.post_run, ← indexParam_eq]
  refine ⟨?_, State.posted_post _ _ _ _⟩
  split
  · exact congrArg (fun r : RunRecord => { r with stopReason := .pause }) (s.setRunState_run .paused)
  · exact s.setRunState_run .paused

theorem State.enterFault_run (s : State) : s.enterFault.run = { s.run with state := .fault } := by
  simp only [State.enterFault]
  rw [State.post_run]
  split
  · next j _ =>
    obtain ⟨q, e⟩ := (s.setRunState .fault).damageSlot_eq j
    rw [e]
    exact s.setRunState_run .fault
  · exact s.setRunState_run .fault

theorem State.enterFault_posted {c : Nat} (chunk : s.run.faultChunk = some c) :
    s.enterFault.posted [(.memoryFault, 0, BitVec.ofNat 32 (c % 2 ^ 16))] := by
  have damaged : ∀ j, ((s.setRunState .fault).damageSlot j).run = { s.run with state := .fault } := fun j => by
    obtain ⟨q, e⟩ := (s.setRunState .fault).damageSlot_eq j
    rw [e]
    exact s.setRunState_run .fault
  have named : ∀ u : State, u.run = { s.run with state := .fault } →
      (u.post .memoryFault 0 (chunkParam (u.run.faultChunk.getD 0))).posted
        [(.memoryFault, 0, BitVec.ofNat 32 (c % 2 ^ 16))] := fun u run => by
    rw [run, chunk, Option.getD_some, chunkParam_low]
    exact u.posted_post _ _ _
  unfold State.enterFault
  dsimp only
  split
  · exact named _ (damaged _)
  · exact named _ (s.setRunState_run .fault)

/-- The armed slot is DAMAGED if it was READY. -/
theorem State.slot_enterFault {j : Nat} (armed : s.run.armedSlot = some j) : s.enterFault.slot j =
    { s.slot j with state := if (s.slot j).state = .ready then .damaged else (s.slot j).state } := by
  have named : (s.setRunState .fault).run.armedSlot = some j := by rw [s.setRunState_run]; exact armed
  have same : (s.setRunState .fault).slot j = s.slot j := State.slot_congr (s.setRunState_slots .fault) j
  simp only [State.enterFault, named]
  rw [State.slot_congr (State.post_slots _ _ _ _), State.slot_damageSlot_same, same]

theorem State.finishRepair_leaves (s : State) : s.finishRepair.run = { s.run with state := .finished } ∧
    s.finishRepair.slots = s.slots ∧ s.finishRepair.posted [(.repairDone, 0, 0)] :=
  ⟨(State.post_run _ _ _ _).trans (s.setRunState_run .finished),
    (State.post_slots _ _ _ _).trans (s.setRunState_slots .finished), (s.setRunState .finished).posted_postRepairDone 0⟩

/-! ### END (R70, R71, R153) -/

/-- The run FINISHED at END, before the Repair List is looked at. -/
def State.ended (s : State) (running : Bool) : State :=
  if running then (s.setRunState .finished).setStopReason .endOfDesign else s.setRunState .finished

theorem State.ended_run (s : State) (running : Bool) : (s.ended running).run = { s.run with
    state := .finished, stopReason := if running then .endOfDesign else s.run.stopReason } := by
  unfold State.ended
  split
  · exact congrArg (fun r : RunRecord => { r with stopReason := .endOfDesign }) (s.setRunState_run .finished)
  · exact s.setRunState_run .finished

theorem State.ended_repairs (s : State) (running : Bool) : (s.ended running).repairs = s.repairs := by
  unfold State.ended
  split
  · exact s.setRunState_repairs .finished
  · exact s.setRunState_repairs .finished

/-- The event of the END and the flag of the repairs outstanding. -/
def State.flagged (s : State) (param : BitVec 32) : State :=
  let t := s.post .designEnd 0 param
  t.withRun { t.run with outstanding := decide (t.repairs ≠ []) }

theorem State.flagged_run (s : State) (param : BitVec 32) :
    (s.flagged param).run = { s.run with outstanding := decide (s.repairs ≠ []) } := by
  simp only [State.flagged, State.post_run, State.post_repairs]
  rfl

theorem State.flagged_repairs (s : State) (param : BitVec 32) : (s.flagged param).repairs = s.repairs :=
  s.post_repairs _ _ _

theorem State.flagged_posted (s : State) (param : BitVec 32) : (s.flagged param).posted [(.designEnd, 0, param)] :=
  (s.posted_post _ _ _).congr rfl rfl

theorem State.finishAtEnd_main (main : s.run.pass = .main) : s.finishAtEnd running = (s.ended running).flagged 0 := by
  cases running <;>
    simp only [State.finishAtEnd, main, State.ended, State.flagged, State.post_run, State.setStopReason, State.withRun_run,
      State.setRunState_run, if_true, Bool.false_eq_true, if_false] <;> rfl

/-- The Repair List without the FAULT entries being sewn. -/
def State.trimmed (s : State) : State := s.setRepairs (s.repairs.filter fun e => !(e.isFault && e.sewing))

theorem State.trimmed_run (s : State) : s.trimmed.run = { s.run with outstanding := s.trimmed.run.outstanding } :=
  (State.OnlyHeads.setRepairs s _).run

/-- In a REPAIR pass the FAULT entries being sewn go first, and the pass ends with REPAIR_DONE. -/
theorem State.finishAtEnd_repair (repair : s.run.pass = .repair) :
    s.finishAtEnd running = ((s.trimmed.ended running).flagged 1).postRepairDone s.trimmed.repairs.length := by
  have kept : ∀ l, (s.setRepairs l).run.pass = .repair := fun l => by rw [State.setRepairs_eq]; exact repair
  unfold State.trimmed
  cases running <;>
    simp only [State.finishAtEnd, repair, State.ended, State.flagged, State.post_run, State.post_repairs,
      State.setStopReason, State.withRun_run, State.withRun_repairs, State.setRunState_run, State.setRunState_repairs,
      State.setRepairs_repairs, kept, if_true, Bool.false_eq_true, if_false] <;> rfl

theorem State.haltOutcome_end (reason : k.reason = some .endRecord) :
    (s.haltOutcome k running).run = { s.run with
      state := .finished, stopReason := if running then .endOfDesign else s.run.stopReason,
      outstanding := decide ((s.haltOutcome k running).repairs ≠ []) } ∧
    (s.run.pass = .main → (s.haltOutcome k running).repairs = s.repairs ∧
      (s.haltOutcome k running).posted [(.designEnd, 0, 0)]) ∧
    (s.run.pass = .repair →
      (s.haltOutcome k running).repairs.Perm (s.repairs.filter fun e => !(e.isFault && e.sewing)) ∧
      (s.haltOutcome k running).posted
        [(.designEnd, 0, 1), (.repairDone, 0, BitVec.ofNat 32 ((s.haltOutcome k running).repairs.length % 64))]) := by
  have outcome : s.haltOutcome k running = s.finishAtEnd running := by simp only [State.haltOutcome, reason]
  rw [outcome]
  cases pass : s.run.pass with
  | main =>
    have repairs : (s.finishAtEnd running).repairs = s.repairs := by
      rw [State.finishAtEnd_main pass, State.flagged_repairs, State.ended_repairs]
    rw [repairs, State.finishAtEnd_main pass]
    refine ⟨?_, fun _ => ⟨rfl, State.flagged_posted _ _⟩, nofun⟩
    rw [State.flagged_run, State.ended_run, State.ended_repairs]
  | repair =>
    have repairs : (s.finishAtEnd running).repairs = s.trimmed.repairs := by
      rw [State.finishAtEnd_repair pass]
      exact (State.post_repairs _ _ _ _).trans ((State.flagged_repairs _ _).trans (State.ended_repairs _ _))
    have posted := (State.flagged_posted (s.trimmed.ended running) 1).post (by decide) .repairDone 0
      (BitVec.ofNat 32 (paramField 6 0 s.trimmed.repairs.length))
    have left : paramField 6 0 s.trimmed.repairs.length = s.trimmed.repairs.length % 64 := paramField_low 6 _
    rw [repairs, State.finishAtEnd_repair pass]
    refine ⟨?_, nofun, fun _ => ⟨?_, ?_⟩⟩
    · rw [State.postRepairDone, State.post_run, State.flagged_run, State.ended_run, State.ended_repairs, s.trimmed_run]
    · rw [State.trimmed, State.setRepairs_repairs]
      exact sortEntries_perm _
    · rw [← left]
      exact posted

/-! ### COLOUR (R70, R105) -/

theorem State.haltOutcome_colour (reason : k.reason = some .colour) (present : ∃ h ∈ headNumbers, s.present h = true) :
    let e := s.colourEntry s.run.colourBlock
    let action := if running then entryAction e.action else .pause
    (s.haltOutcome k running).run = { s.run with state := .changing } ∧
    (s.haltOutcome k running).change = some (s.newChange e.needle action) ∧
    ((s.ring.state = .full ∨ s.ring.state = .split) →
      ⟨.selectNeedle, 31, e.needle⟩ ∈ (s.haltOutcome k running).ring.requests) := by
  intro e action
  have outcome : s.haltOutcome k running = s.startChange e.needle action := by
    simp only [State.haltOutcome, reason]
    rfl
  obtain ⟨ring, started, queued⟩ := State.startChange_eq e.needle action present
  obtain ⟨b, a, begun⟩ := s.changing_eq e.needle action
  rw [outcome, started, begun]
  exact ⟨rfl, rfl, queued⟩

/-! ### SKIP entries (R111, R146) -/

/-- The entries of one head. -/
def State.entriesOf (s : State) (g : Nat) : List RepairEntry := s.repairs.filter fun e => decide (e.head = g)

/-- How many SKIP entries stand in the list. -/
def State.skips (s : State) : Nat := (s.repairs.filter (·.isSkip)).length

theorem State.entriesOf_setRepairs (s : State) (l : List RepairEntry) (g : Nat) :
    ((s.setRepairs l).entriesOf g).Perm (l.filter fun e => decide (e.head = g)) := by
  rw [State.entriesOf, State.setRepairs_repairs]
  exact (sortEntries_perm l).filter _

theorem State.skips_setRepairs (s : State) (l : List RepairEntry) :
    (s.setRepairs l).skips = (l.filter (·.isSkip)).length := by
  rw [State.skips, State.setRepairs_repairs]
  exact ((sortEntries_perm l).filter _).length_eq

/-- The first entry changed leaves what a test finds in the others, if it finds neither the entry nor what it becomes. -/
theorem filter_changeFirst {p q : RepairEntry → Bool} {f : RepairEntry → RepairEntry} {l : List RepairEntry}
    (apart : ∀ e, p e = true → q e = false ∧ q (f e) = false) : (changeFirst p f l).filter q = l.filter q := by
  induction l with
  | nil => rfl
  | cons e rest ih =>
    unfold changeFirst
    split
    · next first =>
        rw [List.filter_cons_of_neg (by simp [(apart e first).2]), List.filter_cons_of_neg (by simp [(apart e first).1])]
    · rw [List.filter_cons, List.filter_cons, ih]

/-- The first entry changed leaves how many entries a test finds, if it finds the entry where it finds what it becomes. -/
theorem length_filter_changeFirst {p q : RepairEntry → Bool} {f : RepairEntry → RepairEntry} {l : List RepairEntry}
    (same : ∀ e, q (f e) = q e) : ((changeFirst p f l).filter q).length = (l.filter q).length := by
  induction l with
  | nil => rfl
  | cons e rest ih =>
    unfold changeFirst
    split
    · rw [List.filter_cons, List.filter_cons, same]
      split <;> rfl
    · rw [List.filter_cons, List.filter_cons]
      split
      · exact congrArg (· + 1) ih
      · exact ih

/-- The SKIP entry a head is given where none of its own can be merged (R111). -/
def State.newSkip (s : State) (h : Nat) : RepairEntry :=
  { head := h, kind := .skip, fromIndex := s.run.cursor, toBlock := some s.run.colourBlock, toIndex := none,
    deferred := none, sewing := false }

/-- A SKIP entry of a head is merged into one of its SKIP entries, placed anew, or finds the share full (R111, R146). -/
theorem State.skipEntry_cases (s : State) (h : Nat) :
    (∃ p f, (∀ e, p e = true → e.head = h ∧ e.isSkip = true) ∧ (∀ e, (f e).head = e.head ∧ (f e).isSkip = e.isSkip) ∧
      (∃ e ∈ s.repairs, p e = true) ∧ (s.skipEntry h).1 = s.setRepairs (changeFirst p f s.repairs)) ∨
    (s.skipEntry h).1 = s.setRepairs (s.newSkip h :: s.repairs) ∨
    (s.skipEntry h).1 = s ∧ 24 ≤ s.skips := by
  unfold State.skipEntry
  dsimp only
  split
  · next merges =>
    refine .inl ⟨_, _, fun e first => ?_, ?_, List.any_eq_true.mp merges, rfl⟩
    · simp only [Bool.and_eq_true, decide_eq_true_eq] at first
      exact first.1
    · exact fun e => ⟨rfl, rfl⟩
  · split
    · next merges =>
      refine .inl ⟨_, _, fun e first => ?_, ?_, List.any_eq_true.mp merges, rfl⟩
      · simp only [Bool.and_eq_true, decide_eq_true_eq] at first
        exact first.1.1
      · exact fun e => ⟨rfl, rfl⟩
    · split
      · exact .inr (.inl rfl)
      · next full => exact .inr (.inr ⟨rfl, Nat.not_lt.mp full⟩)

/-- A SKIP entry of one head leaves the entries of the others. -/
theorem State.entriesOf_skipEntry (s : State) {h g : Nat} (other : g ≠ h) :
    ((s.skipEntry h).1.entriesOf g).Perm (s.entriesOf g) := by
  rcases s.skipEntry_cases h with ⟨p, f, own, keeps, -, merged⟩ | placed | ⟨same, -⟩
  · rw [merged]
    refine (s.entriesOf_setRepairs _ g).trans (.of_eq (filter_changeFirst fun e first => ?_))
    have head := (own e first).1
    exact ⟨decide_eq_false fun e => other (e.symm.trans head),
      decide_eq_false fun e => other (e.symm.trans ((keeps _).1.trans head))⟩
  · rw [placed]
    refine (s.entriesOf_setRepairs _ g).trans (.of_eq (List.filter_cons_of_neg ?_))
    exact fun own => other (of_decide_eq_true own).symm
  · rw [same]

/-- A SKIP entry handed to the list adds at most one. -/
theorem State.skips_skipEntry (s : State) (h : Nat) : (s.skipEntry h).1.skips ≤ s.skips + 1 := by
  rcases s.skipEntry_cases h with ⟨p, f, -, keeps, -, merged⟩ | placed | ⟨same, -⟩
  · rw [merged, State.skips_setRepairs, length_filter_changeFirst fun e => (keeps e).2]
    exact Nat.le_succ _
  · rw [placed, State.skips_setRepairs]
    exact Nat.le_refl _
  · rw [same]
    exact Nat.le_succ _

/-- A head without SKIP entries is given its own where there is room. -/
theorem State.mem_skipEntry (s : State) {h : Nat} (bare : ∀ e ∈ s.repairs, e.head = h → e.isSkip = false)
    (room : s.skips < 24) : s.newSkip h ∈ (s.skipEntry h).1.repairs := by
  rcases s.skipEntry_cases h with ⟨p, f, own, -, ⟨e, mem, first⟩, -⟩ | placed | ⟨-, full⟩
  · obtain ⟨head, skip⟩ := own e first
    rw [bare e mem head] at skip
    cases skip
  · rw [placed, State.setRepairs_repairs, mem_sortEntries]
    exact List.mem_cons_self
  · exact absurd room (Nat.not_lt.mpr full)

/-! ### JOIN (R150) -/

/-- Whether a head joins at the executed cursor. -/
def State.joins (s : State) (h : Nat) : Prop := (s.head h).state = .waiting ∧ (s.head h).joinIndex = some s.run.cursor

/-- A head that joins is WAITING, so that its change of state is that of R134 alone. -/
theorem State.changeHead_of_joins {h : Nat} (joins : s.joins h) (st : HeadState) :
    s.changeHead h st none = s.setHeadState h st none :=
  if_neg fun leaves => HeadState.noConfusion (joins.1.symm.trans leaves.1)

theorem State.joinHead_barred {h : Nat} (joins : s.joins h) (barred : s.barred h = true) :
    s.joinHead h = ((s.setHeadState h .heldNeedle none).skipEntry h).1 := by
  rw [← State.changeHead_of_joins joins]
  exact (if_pos joins).trans (if_pos barred)

theorem State.joinHead_free {h : Nat} (joins : s.joins h) (free : s.barred h ≠ true) :
    s.joinHead h = (s.setHeadState h .active none).markEntries h s.run.cursor := by
  rw [← State.changeHead_of_joins joins]
  exact (if_pos joins).trans (if_neg free)

theorem State.joinHead_apart {h : Nat} (apart : ¬ s.joins h) : s.joinHead h = s := if_neg apart

theorem State.head_skipEntry (s : State) (h g : Nat) : (s.skipEntry h).1.head g = s.head g := by
  obtain ⟨l, o, e⟩ := s.skipEntry_eq h
  rw [e]
  rfl

/-- The record of a head at a JOIN. -/
theorem State.head_joinHead_same (s : State) (h : Nat) : (s.joinHead h).head h =
    if (s.head h).state = .waiting ∧ (s.head h).joinIndex = some s.run.cursor then
      if s.barred h = true then { s.head h with state := .heldNeedle, cause := none }
      else { s.head h with state := .active, cause := none, noMotion := 0, tension := 0, lastMotion := s.run.cursor }
    else s.head h := by
  split
  · next joins =>
    split
    · next barred =>
      rw [State.joinHead_barred joins barred, State.head_skipEntry, State.head_setHeadState_same]
      rfl
    · next free =>
      rw [State.joinHead_free joins free, State.markEntries, State.setRepairs_head, State.head_setHeadState_same, if_pos rfl,
        State.freshCounts, joins.2, ite_self, ← joins.2]
  · next apart => rw [State.joinHead_apart apart]

theorem State.head_joinHead_other (s : State) (h g : Nat) (other : g ≠ h) : (s.joinHead h).head g = s.head g := by
  by_cases joins : s.joins h
  · by_cases barred : s.barred h = true
    · rw [State.joinHead_barred joins barred, State.head_skipEntry, State.head_setHeadState_other _ _ _ other]
    · rw [State.joinHead_free joins barred, State.markEntries, State.setRepairs_head,
        State.head_setHeadState_other _ _ _ other]
  · rw [State.joinHead_apart joins]

/-- Entries marked for one head leave those of the others. -/
theorem State.entriesOf_markEntries (s : State) {h g : Nat} (c : Nat) (other : g ≠ h) :
    ((s.markEntries h c).entriesOf g).Perm (s.entriesOf g) := by
  refine (s.entriesOf_setRepairs _ g).trans (.of_eq ?_)
  rw [List.filter_map, State.entriesOf]
  have test : ((fun e : RepairEntry => decide (e.head = g)) ∘ fun e =>
      if e.head = h ∧ e.fromIndex = c then { e with sewing := true } else e) = fun e => decide (e.head = g) := by
    funext e
    dsimp only [Function.comp]
    split <;> rfl
  rw [test]
  refine (List.map_congr_left fun e mem => ?_).trans (List.map_id _)
  have head := of_decide_eq_true (List.mem_filter.mp mem).2
  exact if_neg fun own => other (head.symm.trans own.1)

theorem State.skips_markEntries (s : State) (h c : Nat) : (s.markEntries h c).skips = s.skips := by
  rw [State.markEntries, State.skips_setRepairs, List.filter_map, List.length_map, State.skips]
  congr 2
  funext e
  dsimp only [Function.comp]
  split <;> rfl

theorem State.sewing_markEntries (s : State) (h c : Nat) :
    ∀ e ∈ (s.markEntries h c).repairs, e.head = h → e.fromIndex = c → e.sewing = true := by
  intro e mem
  rw [State.markEntries, State.setRepairs_repairs, mem_sortEntries, List.mem_map] at mem
  obtain ⟨d, -, rfl⟩ := mem
  split
  · exact fun _ _ => rfl
  · next apart => exact fun own here => absurd ⟨own, here⟩ apart

theorem State.entriesOf_setHeadState (s : State) (h g : Nat) (st : HeadState) (cause : Option HeadCause) :
    (s.setHeadState h st cause).entriesOf g = s.entriesOf g := by
  rw [State.entriesOf, State.repairs_setHeadState, State.entriesOf]

theorem State.skips_setHeadState (s : State) (h : Nat) (st : HeadState) (cause : Option HeadCause) :
    (s.setHeadState h st cause).skips = s.skips := by
  rw [State.skips, State.repairs_setHeadState, State.skips]

theorem State.entriesOf_joinHead (s : State) {h g : Nat} (other : g ≠ h) :
    ((s.joinHead h).entriesOf g).Perm (s.entriesOf g) := by
  by_cases joins : s.joins h
  · by_cases barred : s.barred h = true
    · rw [State.joinHead_barred joins barred, ← s.entriesOf_setHeadState h g .heldNeedle none]
      exact State.entriesOf_skipEntry _ other
    · rw [State.joinHead_free joins barred, ← s.entriesOf_setHeadState h g .active none]
      exact State.entriesOf_markEntries _ _ other
  · rw [State.joinHead_apart joins]

theorem State.skips_joinHead (s : State) (h : Nat) : (s.joinHead h).skips ≤ s.skips + 1 := by
  by_cases joins : s.joins h
  · by_cases barred : s.barred h = true
    · rw [State.joinHead_barred joins barred, ← s.skips_setHeadState h .heldNeedle none]
      exact State.skips_skipEntry _ h
    · rw [State.joinHead_free joins barred, State.skips_markEntries, State.skips_setHeadState]
      exact Nat.le_succ _
  · rw [State.joinHead_apart joins]
    exact Nat.le_succ _

theorem State.entriesOf_foldl_joinHead (s : State) {l : List Nat} {g : Nat} (out : g ∉ l) :
    ((l.foldl State.joinHead s).entriesOf g).Perm (s.entriesOf g) := by
  induction l generalizing s with
  | nil => exact .refl _
  | cons h rest ih =>
    rw [List.mem_cons, not_or] at out
    exact (ih (s.joinHead h) out.2).trans (s.entriesOf_joinHead out.1)

theorem State.skips_foldl_joinHead (s : State) (l : List Nat) : (l.foldl State.joinHead s).skips ≤ s.skips + l.length := by
  induction l generalizing s with
  | nil => exact Nat.le_refl _
  | cons h rest ih =>
    have first := s.skips_joinHead h
    have later := ih (s.joinHead h)
    rw [List.foldl_cons, List.length_cons]
    omega

/-- What a JOIN makes of one head, its record and its entries (R150). -/
def State.Joined (s t : State) (h : Nat) : Prop :=
  if (s.head h).state = .waiting ∧ (s.head h).joinIndex = some s.run.cursor then
    if s.barred h = true then
      t.head h = { s.head h with state := .heldNeedle, cause := none } ∧
      ((∀ e ∈ s.repairs, e.isSkip = false) → s.newSkip h ∈ t.repairs)
    else
      t.head h = { s.head h with state := .active, cause := none, noMotion := 0, tension := 0,
                                 lastMotion := s.run.cursor } ∧
      ∀ e ∈ t.repairs, e.head = h → e.fromIndex = s.run.cursor → e.sewing = true
  else t.head h = s.head h

theorem State.mem_of_entriesOf {g : Nat} (same : (t.entriesOf g).Perm (s.entriesOf g)) {e : RepairEntry}
    (own : e.head = g) : e ∈ t.repairs ↔ e ∈ s.repairs := by
  have found := same.mem_iff (a := e)
  simpa only [State.entriesOf, List.mem_filter, own, decide_true, and_true] using found

/-- The heads that join, each whatever was done to the heads before and after it. -/
theorem State.joined_joinHeads (s : State) {h : Nat} (mem : h ∈ headNumbers) : s.Joined s.joinHeads h := by
  obtain ⟨pre, post, split, notBefore, notAfter, found, left⟩ :=
    State.head_foldl_of_mem State.head_joinHead_other s headNumbers_nodup mem
  change s.joinHeads.head h = _ at left
  generalize hu : pre.foldl State.joinHead s = u at found left
  have before : s.OnlyHeads u := hu ▸ .foldl State.OnlyHeads.joinHead pre s
  have ending : s.joinHeads = post.foldl State.joinHead (u.joinHead h) := by
    rw [State.joinHeads, split, List.foldl_append, List.foldl_cons, ← hu]
  have cursor : u.run.cursor = s.run.cursor := before.cursor
  have block : u.run.colourBlock = s.run.colourBlock := (congrArg RunRecord.colourBlock before.run).trans rfl
  have entries : (u.entriesOf h).Perm (s.entriesOf h) := hu ▸ s.entriesOf_foldl_joinHead notBefore
  have kept : ∀ {e : RepairEntry}, e.head = h → (e ∈ s.joinHeads.repairs ↔ e ∈ (u.joinHead h).repairs) := fun own => by
    rw [ending]
    exact State.mem_of_entriesOf (State.entriesOf_foldl_joinHead _ notAfter) own
  have record := u.head_joinHead_same h
  rw [found, cursor, before.barred, ← left] at record
  have joining : u.joins h ↔ (s.head h).state = .waiting ∧ (s.head h).joinIndex = some s.run.cursor := by
    rw [State.joins, found, cursor]
  have few : (∀ e ∈ s.repairs, e.isSkip = false) → u.skips < 24 := fun bare => by
    have none : s.skips = 0 := by
      rw [State.skips, List.length_eq_zero_iff, List.filter_eq_nil_iff]
      exact fun e mem => by rw [bare e mem]; exact Bool.false_ne_true
    have counted := s.skips_foldl_joinHead pre
    have length := headNumbers_length
    rw [split, List.length_append, List.length_cons] at length
    rw [hu] at counted
    omega
  unfold State.Joined
  split
  · next joins =>
    rw [if_pos joins] at record
    split
    · next barred =>
      rw [if_pos barred] at record
      refine ⟨record, fun bare => (kept rfl).mpr ?_⟩
      have held := State.OnlyHeads.setHeadState u h .heldNeedle none
      have repairs := u.repairs_setHeadState h .heldNeedle none
      have new : (u.setHeadState h .heldNeedle none).newSkip h = s.newSkip h := by
        have same : (u.setHeadState h .heldNeedle none).run.colourBlock = u.run.colourBlock :=
          (congrArg RunRecord.colourBlock held.run).trans rfl
        rw [State.newSkip, State.newSkip, held.cursor, same, cursor, block]
      rw [State.joinHead_barred (joining.mpr joins) (by rw [before.barred]; exact barred), ← new]
      refine State.mem_skipEntry _ (fun e mem own => bare e ?_) (by rw [State.skips_setHeadState]; exact few bare)
      rw [repairs] at mem
      exact (State.mem_of_entriesOf entries own).mp mem
    · next free =>
      rw [if_neg free] at record
      refine ⟨record, fun e mem own here => ?_⟩
      have found := (kept own).mp mem
      rw [State.joinHead_free (joining.mpr joins) (by rw [before.barred]; exact free)] at found
      exact State.sewing_markEntries _ h _ e found own (here.trans cursor.symm)
  · next apart =>
    rw [if_neg apart] at record
    exact record

theorem State.haltOutcome_join_running (reason : k.reason = some .join) : s.haltOutcome k true = s.joinHeads := by
  simp only [State.haltOutcome, reason, if_true]

theorem State.haltOutcome_join_stopping (reason : k.reason = some .join) :
    s.haltOutcome k false = (s.joinHeads.setRunState .paused).postStopped := by
  simp only [State.haltOutcome, reason, Bool.false_eq_true, if_false]

/-- What leaves the heads and the Repair List leaves what a JOIN made of them. -/
theorem State.Joined.congr {u : State} {h : Nat} (joined : s.Joined t h) (heads : u.heads = t.heads)
    (repairs : u.repairs = t.repairs) : s.Joined u h := by
  have head : u.head h = t.head h := congrArg (Table.get (fun _ => HeadRecord.reset) · h) heads
  unfold State.Joined at joined ⊢
  rw [head, repairs]
  exact joined

end outcomes

/-! ### O36 -/

theorem State.pausedStopped_heads (s : State) : (s.setRunState .paused).postStopped.heads = s.heads ∧
    (s.setRunState .paused).postStopped.repairs = s.repairs := by
  obtain ⟨b, a, entered⟩ := s.setRunState_eq .paused
  obtain ⟨q, posts⟩ := (s.setRunState .paused).post_eq .runStopped 0
    (BitVec.ofNat 32 (paramField 4 0 (s.setRunState .paused).run.stopReason.code))
  rw [State.postStopped, posts, entered]
  exact ⟨rfl, rfl⟩

/-- The heads and entries of a halt resolved at a JOIN. -/
theorem State.resolveHalt_join {k : Token} (reason : k.reason = some .join)
    (resolves : s.run.state = .running ∨
      s.run.state = .stopping ∧ s.run.stopReason ≠ .memory ∧ s.run.stopReason ≠ .repairDone) :
    (∀ h ∈ headNumbers, s.Joined (s.resolveHalt k) h) ∧
    (s.resolveHalt k).run = { s.run with
      state := if s.run.state = .running then .running else .paused,
      outstanding := (s.resolveHalt k).run.outstanding } ∧
    (s.run.state = .running → (s.resolveHalt k).events = s.events) ∧
    (s.run.state = .stopping →
      (s.resolveHalt k).posted [(.runStopped, 0, BitVec.ofNat 32 (s.run.stopReason.code % 16))]) := by
  have joined := fun h mem => s.unhalted.joined_joinHeads (h := h) mem
  have only := State.OnlyHeads.joinHeads s.unhalted
  rcases resolves with running | ⟨stopping, memory, done⟩
  · rw [State.resolveHalt_running k running, State.haltOutcome_join_running reason]
    refine ⟨joined, ?_, fun _ => (congrArg State.events only.eq).trans rfl, fun now => ?_⟩
    · rw [if_pos running, ← running]
      exact only.run
    · rw [running] at now
      cases now
  · rw [State.resolveHalt_stopping k stopping memory done, State.haltOutcome_join_stopping reason]
    have run : (s.unhalted.joinHeads.setRunState .paused).run =
        { s.run with state := .paused, outstanding := s.unhalted.joinHeads.run.outstanding } := by
      rw [State.setRunState_run, only.run]
      rfl
    have posted := (s.unhalted.joinHeads.setRunState .paused).posted_postStopped
    rw [run] at posted
    obtain ⟨heads, repairs⟩ := s.unhalted.joinHeads.pausedStopped_heads
    refine ⟨fun h mem => (joined h mem).congr heads repairs, ?_, fun now => ?_, fun _ => posted⟩
    · rw [State.postStopped, State.post_run, run, if_neg (by rw [stopping]; nofun)]
    · rw [stopping] at now
      cases now

/-- Settles O36: the outcome of a halt by the run state and its reason. -/
theorem haltResolvesByReason : Obligations.HaltResolvesByReason := by
  intro s k t stopping joins change
  have resolved : s.run.state = .running ∨ stopping → t = s.unhalted.haltOutcome k (decide (s.run.state = .running)) := by
    rintro (running | ⟨stops, memory, done⟩)
    · rw [decide_eq_true running]
      exact State.resolveHalt_running k running
    · rw [decide_eq_false (by rw [stops]; nofun)]
      exact State.resolveHalt_stopping k stops memory done
  have colour : s.run.state = .running ∨ stopping → k.reason = some .colour → (∃ h ∈ headNumbers, s.present h = true) →
      change (if s.run.state = .running then entryAction (s.colourEntry s.run.colourBlock).action else .pause) := by
    intro live reason present
    have outcome := State.haltOutcome_colour (s := s.unhalted) (running := decide (s.run.state = .running)) reason present
    rw [← resolved live] at outcome
    simp only [decide_eq_true_eq] at outcome
    exact outcome
  refine ⟨State.resolveHalt_haltFlag k, fun live reason => ?_, fun live reason => ?_, fun running reason present => ?_,
    fun live reason present => ?_, fun running reason => ?_, fun live reason => ?_, fun now memory => ?_, fun now done => ?_⟩
  · have outcome := State.haltOutcome_pause (s := s.unhalted) (running := decide (s.run.state = .running)) reason
    rw [← resolved live] at outcome
    simp only [decide_eq_true_eq] at outcome
    exact outcome
  · have outcome := State.haltOutcome_end (s := s.unhalted) (running := decide (s.run.state = .running)) reason
    rw [← resolved live] at outcome
    simp only [decide_eq_true_eq] at outcome
    exact outcome
  · have outcome := colour (.inl running) reason present
    rw [if_pos running] at outcome
    exact outcome
  · have outcome := colour (.inr live) reason present
    rw [if_neg (by rw [live.1]; nofun)] at outcome
    exact outcome
  · obtain ⟨joined, run, events, -⟩ := State.resolveHalt_join reason (.inl running)
    rw [if_pos running, ← running] at run
    exact ⟨joined, run, events running⟩
  · obtain ⟨joined, run, -, posted⟩ := State.resolveHalt_join reason (.inr live)
    rw [if_neg (by rw [live.1]; nofun)] at run
    exact ⟨joined, run, posted live.1⟩
  · rw [show t = _ from State.resolveHalt_memory k now memory]
    refine ⟨s.unhalted.enterFault_run, fun j armed ready => ?_, fun c chunk => State.enterFault_posted (s := s.unhalted) chunk⟩
    have slot := State.slot_enterFault (s := s.unhalted) armed
    rw [show s.unhalted.slot j = s.slot j from rfl, if_pos ready] at slot
    exact slot
  · obtain ⟨run, -, posted⟩ := s.unhalted.finishRepair_leaves
    rw [show t = _ from State.resolveHalt_repairDone k now done]
    exact ⟨run, posted⟩

end Sys2Proof.Machine
end

section
/-! PROOF SUPPORT. Completions (R85): the executed point they move, what they and the handover leave alone. -/

namespace Sys2Proof.Machine

open Sys2Proof

variable {s t u : State} {k : Token}

/-! ### What the Repair List of a MAIN pass leaves alone -/

/-- The state with the Repair List and the outstanding-repairs flag blanked out. -/
def State.blankRepairs (s : State) : State := (s.withRepairs []).withRun { s.run with outstanding := false }

/-- Nothing changed but the Repair List and the outstanding-repairs flag. -/
def State.OnlyRepairs (s t : State) : Prop := t.blankRepairs = s.blankRepairs

theorem State.OnlyRepairs.refl (s : State) : s.OnlyRepairs s := rfl

theorem State.OnlyRepairs.trans (h : s.OnlyRepairs t) (g : t.OnlyRepairs u) : s.OnlyRepairs u := Eq.trans g h

theorem State.OnlyRepairs.setRepairs (s : State) (l : List RepairEntry) : s.OnlyRepairs (s.setRepairs l) := by
  rw [State.setRepairs_eq]
  rfl

theorem State.OnlyRepairs.eq (h : s.OnlyRepairs t) :
    t = (s.withRepairs t.repairs).withRun { s.run with outstanding := t.run.outstanding } :=
  calc
    t = (t.blankRepairs.withRepairs t.repairs).withRun { t.blankRepairs.run with outstanding := t.run.outstanding } := rfl
    _ = _ := by rw [show t.blankRepairs = s.blankRepairs from h]; rfl

/-- The Repair List told the executed cursor before a REPAIR pass sees to its heads. -/
theorem State.OnlyRepairs.told (s : State) (k : Token) : s.OnlyRepairs ((s.fixToIndex k).moveDeferred k) :=
  (State.OnlyRepairs.setRepairs s _).trans (.setRepairs _ _)

/-! ### What a report leaves alone -/

/-- The state with everything blanked out that completions and their handover may change, but for the executed point and the
queue. -/
def State.blankReport (s : State) : State := { s with
  heads := [], ring := { s.ring with requests := [] }, repairs := [], events := [], arbiter := .reset, change := none,
  walk := none, run := { s.run with state := .idle, stopReason := .none, outstanding := false },
  seq := { s.seq with buffer := none } }

/-- Nothing changed but what completions and their handover may change. -/
def State.OnlyReport (s t : State) : Prop := t.blankReport = s.blankReport

theorem State.OnlyReport.refl (s : State) : s.OnlyReport s := rfl

theorem State.OnlyReport.trans (h : s.OnlyReport t) (g : t.OnlyReport u) : s.OnlyReport u := Eq.trans g h

theorem State.OnlyHeads.onlyReport (h : s.OnlyHeads t) : s.OnlyReport t := by
  have blank : t.blankHeads.blankReport = s.blankHeads.blankReport := by rw [show t.blankHeads = s.blankHeads from h]
  exact blank

theorem State.OnlyFaults.onlyReport (h : s.OnlyFaults t) : s.OnlyReport t := by
  have blank : t.blankFaults.blankReport = s.blankFaults.blankReport := by rw [show t.blankFaults = s.blankFaults from h]
  exact blank

theorem State.OnlyReport.ite {p : Prop} [Decidable p] (h : s.OnlyReport t) (g : s.OnlyReport u) :
    s.OnlyReport (if p then t else u) := by
  split
  · exact h
  · exact g

theorem State.OnlyReport.setRunState (s : State) (v : RunState) : s.OnlyReport (s.setRunState v) := by
  obtain ⟨b, a, e⟩ := s.setRunState_eq v
  rw [e]
  rfl

theorem State.OnlyReport.requestStop (s : State) (r : StopReason) : s.OnlyReport (s.requestStop r) := by
  obtain ⟨st, r, c, b, a, e⟩ := s.requestStop_eq r
  rw [e]
  rfl

theorem State.OnlyReport.post (s : State) (k : EventKind) (head : Nat) (param : BitVec 32) :
    s.OnlyReport (s.post k head param) := (State.OnlyFaults.post s k head param).onlyReport

theorem State.OnlyReport.finishRepair (s : State) : s.OnlyReport s.finishRepair :=
  (State.OnlyReport.setRunState s .finished).trans (.post _ _ _ _)

theorem State.OnlyReport.checkPassEmptied (s : State) : s.OnlyReport s.checkPassEmptied := by
  unfold State.checkPassEmptied State.passEmptied
  refine .ite ?_ (.refl s)
  split
  · exact .requestStop s _
  · exact .requestStop s _
  · exact .finishRepair s
  · rfl
  · exact .refl s

/-- The Repair List told the executed point changes entries and heads, and then may find the pass emptied (R151, R153). -/
theorem State.repairCursorMoved_heads (s : State) (k : Token) :
    ∃ u, s.OnlyHeads u ∧ (s.repairCursorMoved k = u ∨ s.repairCursorMoved k = u.checkPassEmptied) := by
  have told : s.OnlyHeads ((s.fixToIndex k).moveDeferred k) := (State.OnlyHeads.setRepairs s _).trans (.setRepairs _ _)
  unfold State.repairCursorMoved
  dsimp only
  split
  · exact ⟨_, told, .inl rfl⟩
  · unfold State.passUpdate
    extract_lets marked losers removed placed
    have entries : ((s.fixToIndex k).moveDeferred k).OnlyHeads removed :=
      (State.OnlyHeads.setRepairs _ _).trans (.setRepairs marked _)
    have heads : removed.OnlyHeads placed := .foldl (fun t h => by
      split
      · exact .refl t
      · exact .returnHead t h) losers removed
    exact ⟨placed, (told.trans entries).trans heads, .inr rfl⟩

theorem State.OnlyReport.repairCursorMoved (s : State) (k : Token) : s.OnlyReport (s.repairCursorMoved k) := by
  obtain ⟨u, heads, moved | moved⟩ := s.repairCursorMoved_heads k
  · rw [moved]
    exact heads.onlyReport
  · rw [moved]
    exact heads.onlyReport.trans (.checkPassEmptied u)

/-- The fields a report may change, named from the state it leaves. -/
theorem State.OnlyReport.eq (h : s.OnlyReport t) : t = { s with
    heads := t.heads, ring := { s.ring with requests := t.ring.requests }, repairs := t.repairs, events := t.events,
    arbiter := t.arbiter, change := t.change, walk := t.walk, seq := { s.seq with buffer := t.seq.buffer },
    run := { s.run with
      state := t.run.state, stopReason := t.run.stopReason, outstanding := t.run.outstanding } } :=
  calc
    t = { t.blankReport with
        heads := t.heads, ring := { t.blankReport.ring with requests := t.ring.requests }, repairs := t.repairs,
        events := t.events, arbiter := t.arbiter, change := t.change, walk := t.walk,
        seq := { t.blankReport.seq with buffer := t.seq.buffer },
        run := { t.blankReport.run with
          state := t.run.state, stopReason := t.run.stopReason, outstanding := t.run.outstanding } } := rfl
    _ = _ := by rw [show t.blankReport = s.blankReport from h]; rfl

/-! ### One completion (R85) -/

/-- The oldest issued token has left the queue, and the executed point stands at its checkpoint. -/
def State.movedTo (s : State) (k : Token) : State :=
  (s.withQueue { s.queue with issued := s.queue.issued.tail }).withRun { s.run with
    frame := k.frameAfter,
    cursor := if k.lastOfRecord then k.index + 1 else s.run.cursor,
    design := if k.lastOfRecord then k.designAfter else s.run.design,
    colourBlock := if k.lastOfRecord ∧ k.reason = some .colour then s.run.colourBlock + 1 else s.run.colourBlock }

/-- The last completed token written. -/
def State.dated (s : State) (n : Nat) : State := s.withQueue { s.queue with lastDone := some n }

/-- The executed point and the queue after the oldest issued token has completed. -/
def State.completed (s : State) (k : Token) : State := (s.movedTo k).dated k.seq

/-- A token leaves the issued region and completes. -/
def State.completeFirst (s : State) (k : Token) : State :=
  (s.withQueue { s.queue with issued := s.queue.issued.tail }).completeToken k

theorem State.completeTokens_cons {rest : List Token} (n : Nat) (issued : s.queue.issued = k :: rest) :
    s.completeTokens (n + 1) = (s.completeFirst k).completeTokens n := by
  rw [State.completeTokens, State.completeFirst]
  split
  · next none => rw [none] at issued; cases issued
  · next t later some =>
    rw [some] at issued ⊢
    obtain ⟨rfl, rfl⟩ := List.cons.inj issued
    rfl

/-- In the middle of a record a completion moves the frame position alone. -/
theorem State.completeFirst_within (within : k.lastOfRecord = false) : s.completeFirst k = s.completed k := by
  simp only [State.completeFirst, State.completeToken, State.completed, State.movedTo, within, Bool.false_eq_true, if_false,
    false_and]
  rfl

/-- At the end of a record the Repair List is told of the executed point. -/
theorem State.completeFirst_last (last : k.lastOfRecord = true) :
    s.completeFirst k = ((s.movedTo k).repairCursorMoved k).dated k.seq := by
  simp only [State.completeFirst, State.completeToken, State.movedTo, last, if_true, true_and]
  rfl

theorem State.blankReport_completed (s : State) (k : Token) : (s.completed k).blankReport = s.blankReport.completed k := rfl

theorem State.blankRepairs_completed (s : State) (k : Token) : (s.completed k).blankRepairs = s.blankRepairs.completed k :=
  rfl

/-- What a report may change, it may change before or after the executed point moves. -/
theorem State.OnlyReport.completed (h : s.OnlyReport t) (k : Token) : (s.completed k).OnlyReport (t.completed k) := by
  rw [State.OnlyReport, State.blankReport_completed, State.blankReport_completed, show t.blankReport = s.blankReport from h]

theorem State.OnlyRepairs.completed (h : s.OnlyRepairs t) (k : Token) : (s.completed k).OnlyRepairs (t.completed k) := by
  rw [State.OnlyRepairs, State.blankRepairs_completed, State.blankRepairs_completed,
    show t.blankRepairs = s.blankRepairs from h]

theorem State.OnlyReport.completeFirst (s : State) (k : Token) : (s.completed k).OnlyReport (s.completeFirst k) := by
  cases last : k.lastOfRecord with
  | false => rw [State.completeFirst_within last]; exact .refl _
  | true =>
    rw [State.completeFirst_last last]
    exact congrArg (State.dated · k.seq) (State.OnlyReport.repairCursorMoved (s.movedTo k) k)

/-- In a MAIN pass a completion changes entries of the Repair List besides, and no head. -/
theorem State.OnlyRepairs.completeFirst (main : s.run.pass = .main) (k : Token) :
    (s.completed k).OnlyRepairs (s.completeFirst k) := by
  cases last : k.lastOfRecord with
  | false => rw [State.completeFirst_within last]; exact .refl _
  | true =>
    have told := State.OnlyRepairs.told (s.movedTo k) k
    have pass : (((s.movedTo k).fixToIndex k).moveDeferred k).run.pass = .main := by
      rw [told.eq]
      exact main
    have moved : (s.movedTo k).repairCursorMoved k = ((s.movedTo k).fixToIndex k).moveDeferred k := by
      simp only [State.repairCursorMoved, pass]
    rw [State.completeFirst_last last, moved]
    exact congrArg (State.dated · k.seq) told

/-! ### Several completions (R85) -/

/-- A relation that the executed point may move under, and that each completion keeps, holds over several of them. -/
theorem State.completeTokens_keeps {R : State → State → Prop} {P : State → Prop} {done : List Token} (refl : ∀ s, R s s)
    (trans : ∀ {a b c}, R a b → R b c → R a c) (moves : ∀ {a b}, R a b → ∀ k, R (a.completed k) (b.completed k))
    (each : ∀ s, P s → ∀ k ∈ done, R (s.completed k) (s.completeFirst k) ∧ P (s.completeFirst k))
    {rest : List Token} (start : P s) (issued : s.queue.issued = done ++ rest)
    (tail : ∀ {a b}, R a b → a.queue = b.queue) :
    R (done.foldl State.completed s) (s.completeTokens done.length) ∧ P (s.completeTokens done.length) := by
  have folds : ∀ (l : List Token) {a b : State}, R a b → R (l.foldl State.completed a) (l.foldl State.completed b) := by
    intro l
    induction l with
    | nil => exact id
    | cons k l ih => exact fun h => ih (moves h k)
  induction done generalizing s with
  | nil => exact ⟨refl s, start⟩
  | cons k done ih =>
    obtain ⟨first, next⟩ := each s start k List.mem_cons_self
    have left : (s.completeFirst k).queue.issued = done ++ rest := by
      rw [← tail first]
      exact (congrArg List.tail issued).trans rfl
    rw [List.length_cons, State.completeTokens_cons done.length issued, List.foldl_cons]
    obtain ⟨later, after⟩ := ih (fun s p k mem => each s p k (List.mem_cons_of_mem _ mem)) next left
    exact ⟨trans (folds done first) later, after⟩

theorem State.OnlyReport.queue (h : s.OnlyReport t) : s.queue = t.queue :=
  (congrArg State.queue (show t.blankReport = s.blankReport from h)).symm

theorem State.OnlyRepairs.queue (h : s.OnlyRepairs t) : s.queue = t.queue :=
  (congrArg State.queue (show t.blankRepairs = s.blankRepairs from h)).symm

theorem State.OnlyReport.completeTokens {done rest : List Token} (issued : s.queue.issued = done ++ rest) :
    (done.foldl State.completed s).OnlyReport (s.completeTokens done.length) :=
  (State.completeTokens_keeps (P := fun _ => True) State.OnlyReport.refl State.OnlyReport.trans State.OnlyReport.completed
    (fun s _ k _ => ⟨.completeFirst s k, trivial⟩) trivial issued State.OnlyReport.queue).1

theorem State.OnlyRepairs.completeTokens {done rest : List Token} (main : s.run.pass = .main)
    (issued : s.queue.issued = done ++ rest) :
    (done.foldl State.completed s).OnlyRepairs (s.completeTokens done.length) :=
  (State.completeTokens_keeps (P := fun s => s.run.pass = .main) State.OnlyRepairs.refl State.OnlyRepairs.trans
    State.OnlyRepairs.completed (fun _ main k _ => ⟨.completeFirst main k, by
      rw [(State.OnlyRepairs.completeFirst main k).eq]
      exact main⟩) main issued State.OnlyRepairs.queue).1

/-- Tokens that all lie in the middle of a record. -/
theorem State.completeTokens_within {done rest : List Token} (within : ∀ k ∈ done, k.lastOfRecord = false)
    (issued : s.queue.issued = done ++ rest) : s.completeTokens done.length = done.foldl State.completed s :=
  (State.completeTokens_keeps (R := fun a b => b = a) (P := fun _ => True) (fun _ => rfl) (fun h g => g.trans h)
    (fun h k => congrArg (State.completed · k) h)
    (fun _ _ k mem => ⟨State.completeFirst_within (within k mem), trivial⟩) trivial issued
    fun h => congrArg State.queue h.symm).1

/-! ### The executed point after several completions -/

/-- The checkpoint of the newest of some tokens, and of the newest that ends its record, where there is one. -/
theorem State.foldl_completed (s : State) (done : List Token) : ∃ b, done.foldl State.completed s =
    (s.withRun { s.run with
      frame := (done.getLast?.map (·.frameAfter)).getD s.run.frame,
      cursor := ((done.filter (·.lastOfRecord)).getLast?.map (·.index + 1)).getD s.run.cursor,
      design := ((done.filter (·.lastOfRecord)).getLast?.map (·.designAfter)).getD s.run.design,
      colourBlock := b }).withQueue { s.queue with
        issued := s.queue.issued.drop done.length,
        lastDone := (done.getLast?.map fun k => some k.seq).getD s.queue.lastDone } := by
  induction done using List.reverseRecOn with
  | nil => exact ⟨s.run.colourBlock, rfl⟩
  | append_singleton done k ih =>
    obtain ⟨b, ih⟩ := ih
    rw [List.foldl_append, ih, List.foldl_cons, List.foldl_nil, List.getLast?_concat, List.filter_append, List.length_append]
    refine ⟨if k.lastOfRecord ∧ k.reason = some .colour then b + 1 else b, ?_⟩
    have issued : (s.queue.issued.drop done.length).tail = s.queue.issued.drop (done.length + [k].length) := by
      rw [List.tail_drop]
      rfl
    rw [← issued]
    cases last : k.lastOfRecord with
    | true =>
      simp only [State.completed, State.movedTo, last, if_true, true_and, List.filter_cons_of_pos, List.filter_nil,
        List.getLast?_concat]
      rfl
    | false =>
      simp only [State.completed, State.movedTo, last, Bool.false_eq_true, false_and, if_false, List.filter_nil,
        List.filter_cons_of_neg, not_false_eq_true, List.append_nil]
      rfl

/-- Tokens none of which closes a colour block leave the current one. -/
theorem State.foldl_completed_block (s : State) {done : List Token}
    (plain : ∀ k ∈ done, ¬ (k.lastOfRecord = true ∧ k.reason = some .colour)) :
    (done.foldl State.completed s).run.colourBlock = s.run.colourBlock := by
  induction done generalizing s with
  | nil => rfl
  | cons k done ih =>
    exact (ih (s.completed k) fun x mem => plain x (List.mem_cons_of_mem _ mem)).trans (if_neg (plain k List.mem_cons_self))

end Sys2Proof.Machine
end

section
/-! PROOF SUPPORT. The handover of STEPs and the fault policy (R86, R136, R139), the rollback (R89), and the run at rest after a
report (R67, R87, R88). -/

namespace Sys2Proof.Machine

open Sys2Proof

variable {s t u : State} {n : Nat}

/-! ### The handover (R86, R136) -/

/-- One head hears of `n` STEPs. -/
def State.addTo (n : Nat) (s : State) (h : Nat) : State :=
  if (s.head h).state = .active then
    s.putHead h { s.head h with noMotion := min ((s.head h).noMotion + n) s.constants.motionLimit }
  else s

theorem State.addStitches_eq (s : State) (n : Nat) : s.addStitches n = headNumbers.foldl (State.addTo n) s := rfl

theorem State.OnlyHeads.putHead (s : State) (h : Nat) (r : HeadRecord) : s.OnlyHeads (s.putHead h r) := rfl

theorem State.OnlyHeads.addTo (s : State) (h : Nat) : s.OnlyHeads (s.addTo n h) := by
  unfold State.addTo
  split
  · exact .putHead s h _
  · exact .refl s

theorem State.OnlyHeads.addStitches (s : State) (n : Nat) : s.OnlyHeads (s.addStitches n) :=
  .foldl State.OnlyHeads.addTo headNumbers s

theorem State.OnlyFaults.constants (h : s.OnlyFaults t) : t.constants = s.constants :=
  (congrArg State.constants h.eq).trans rfl

theorem State.OnlyHeads.constants (h : s.OnlyHeads t) : t.constants = s.constants := h.onlyFaults.constants

theorem State.head_addTo_other (s : State) (h g : Nat) (other : g ≠ h) : (s.addTo n h).head g = s.head g := by
  unfold State.addTo
  split
  · rw [State.head_putHead, if_neg other]
  · rfl

/-- The no-motion count of an ACTIVE head after the handover, held at K. -/
theorem State.head_addStitches (s : State) (n : Nat) {h : Nat} (mem : h ∈ headNumbers) : (s.addStitches n).head h =
    if (s.head h).state = .active then
      { s.head h with noMotion := min ((s.head h).noMotion + n) s.constants.motionLimit }
    else s.head h := by
  obtain ⟨pre, post, -, -, -, found, left⟩ :=
    State.head_foldl_of_mem (State.head_addTo_other (n := n)) s headNumbers_nodup mem
  have before : s.OnlyHeads (pre.foldl (State.addTo n) s) := .foldl State.OnlyHeads.addTo pre s
  rw [State.addStitches_eq, left, State.addTo, found, before.constants]
  split
  · rw [State.head_putHead, if_pos rfl]
  · exact found

/-- Some head breaks when `n` STEPs are handed over: ACTIVE, and its no-motion count reaches K. -/
abbrev State.breaks (s : State) (n : Nat) : Prop :=
  ∃ h ∈ headNumbers, (s.head h).state = .active ∧ s.constants.motionLimit ≤ (s.head h).noMotion + n

theorem State.brokenHeads_eq_nil (s : State) (n : Nat) : (s.addStitches n).brokenHeads = [] ↔ ¬ s.breaks n := by
  rw [State.brokenHeads, List.filter_eq_nil_iff, (State.OnlyHeads.addStitches s n).constants]
  have reaches : ∀ h ∈ headNumbers, ((decide (((s.addStitches n).head h).state = .active) &&
      decide (((s.addStitches n).head h).noMotion = s.constants.motionLimit)) = true ↔
        (s.head h).state = .active ∧ s.constants.motionLimit ≤ (s.head h).noMotion + n) := by
    intro h mem
    rw [State.head_addStitches s n mem, Bool.and_eq_true, decide_eq_true_eq, decide_eq_true_eq]
    split
    · next active => simp only [active, true_and, min_eq_right_iff]
    · next rests => simp only [rests, false_and]
  constructor
  · rintro unbroken ⟨h, mem, breaks⟩
    exact unbroken h mem ((reaches h mem).mpr breaks)
  · exact fun whole h mem broken => whole ⟨h, mem, (reaches h mem).mp broken⟩

/-- With no head broken the counts are all that changes. -/
theorem State.handover_whole (whole : ¬ s.breaks n) : s.handover n = s.addStitches n := by
  simp only [State.handover, (s.brokenHeads_eq_nil n).mpr whole, if_true]

/-- The heads broken each go through the fault action, before the fault policy is applied. -/
def State.broken (s : State) (n : Nat) : State :=
  (s.addStitches n).brokenHeads.foldl (fun u h => u.faultAction h .breakFault) (s.addStitches n)

theorem State.handover_breaks (breaks : s.breaks n) : s.handover n = (s.broken n).applyPolicy := by
  have some := (s.brokenHeads_eq_nil n).not.mpr (not_not.mpr breaks)
  simp only [State.handover, some, if_false]
  rfl

theorem State.OnlyFaults.broken (s : State) (n : Nat) : s.OnlyFaults (s.broken n) :=
  (State.OnlyHeads.addStitches s n).onlyFaults.trans
    (.foldl (fun u h => .faultAction u h .breakFault) _ _)

theorem State.OnlyFaults.run (h : s.OnlyFaults t) : t.run = { s.run with outstanding := t.run.outstanding } :=
  congrArg State.run h.eq

theorem State.OnlyReport.applyPolicy (s : State) : s.OnlyReport s.applyPolicy := .ite (.requestStop s _) (.refl s)

theorem State.OnlyReport.handover (s : State) (n : Nat) : s.OnlyReport (s.handover n) := by
  by_cases breaks : s.breaks n
  · rw [State.handover_breaks breaks]
    exact (State.OnlyFaults.broken s n).onlyReport.trans (.applyPolicy _)
  · rw [State.handover_whole breaks]
    exact (State.OnlyHeads.addStitches s n).onlyReport

/-! ### The run state after the handover (R66, R139) -/

/-- In STOPPING a fault asks for nothing more. -/
theorem State.applyPolicy_stopping (stopping : s.run.state = .stopping) : s.applyPolicy = s := by
  have asked : s.requestStop .fault = s := by
    simp only [State.requestStop, stopping, reduceCtorEq, false_and, if_false]
  rw [State.applyPolicy, asked, ite_self]

theorem State.handover_stopping (stopping : s.run.state = .stopping) (n : Nat) :
    (s.handover n).run = { s.run with outstanding := (s.handover n).run.outstanding } := by
  by_cases breaks : s.breaks n
  · have run := (State.OnlyFaults.broken s n).run
    rw [State.handover_breaks breaks, State.applyPolicy_stopping (by rw [run]; exact stopping)]
    exact run
  · rw [State.handover_whole breaks]
    exact (State.OnlyHeads.addStitches s n).run

/-- In RUNNING a fault stops the run or lets it go on. -/
theorem State.handover_running (running : s.run.state = .running) (n : Nat) :
    (¬ s.breaks n → (s.handover n).run = { s.run with outstanding := (s.handover n).run.outstanding }) ∧
    (s.breaks n → s.constants.faultPolicy = .stopAll → (s.handover n).run = { s.run with
      state := .stopping, stopReason := .fault, outstanding := (s.handover n).run.outstanding }) ∧
    ((s.handover n).run.state = .running ∨ (s.handover n).run.state = .stopping ∧ (s.handover n).run.stopReason = .fault) := by
  by_cases breaks : s.breaks n
  · have run := (State.OnlyFaults.broken s n).run
    have policy := (State.OnlyFaults.broken s n).constants
    have stops := State.requestStop_running (s.broken n) .fault (by rw [run]; exact running)
    rw [run] at stops
    refine ⟨fun whole => absurd breaks whole, fun _ all => ?_, ?_⟩
    · rw [State.handover_breaks breaks, State.applyPolicy, policy, if_pos (.inl all), stops]
    · rw [State.handover_breaks breaks, State.applyPolicy]
      split
      · rw [stops]
        exact .inr ⟨rfl, rfl⟩
      · rw [run]
        exact .inl running
  · have run := (State.OnlyHeads.addStitches s n).run
    rw [State.handover_whole breaks]
    refine ⟨fun _ => run, fun broken => absurd broken breaks, .inl ?_⟩
    rw [run]
    exact running

/-- No head becomes ABSENT or LOST. -/
def State.KeepsPresent (s t : State) : Prop := ∀ h, s.present h = true → t.present h = true

theorem State.KeepsPresent.of_heads (heads : t.heads = s.heads) : s.KeepsPresent t := fun h present => by
  have head : t.head h = s.head h := congrArg (Table.get (fun _ => HeadRecord.reset) · h) heads
  rw [State.present, head]
  exact present

theorem State.KeepsPresent.trans (h : s.KeepsPresent t) (g : t.KeepsPresent u) : s.KeepsPresent u :=
  fun head present => g head (h head present)

/-- A head record written whose state is neither ABSENT nor LOST, or is what it was. -/
theorem State.KeepsPresent.putHead {h : Nat} {r : HeadRecord}
    (stays : r.state = (s.head h).state ∨ r.state ≠ .absent ∧ r.state ≠ .lost) : s.KeepsPresent (s.putHead h r) := by
  intro g present
  rw [State.present, State.head_putHead]
  split
  · next same =>
    subst same
    rcases stays with same | ⟨absent, lost⟩
    · rw [same]
      exact present
    · rw [decide_eq_true absent, decide_eq_true lost, Bool.and_self]
  · exact present

theorem State.KeepsPresent.addTo (s : State) (h : Nat) : s.KeepsPresent (s.addTo n h) := by
  unfold State.addTo
  split
  · exact .putHead (.inl rfl)
  · exact .of_heads rfl

theorem State.KeepsPresent.faultAction (s : State) (h : Nat) (cause : ThreadFault) :
    s.KeepsPresent (s.faultAction h cause) := by
  obtain ⟨r, q, l, o, v, e, held, -⟩ := s.faultAction_eq h cause
  have put : s.KeepsPresent (s.putHead h r) := .putHead (.inr (by rw [held]; exact ⟨nofun, nofun⟩))
  rw [e]
  exact put.trans (.of_heads rfl)

theorem State.KeepsPresent.faultAll (l : List Nat) (s : State) :
    s.KeepsPresent (l.foldl (fun u h => u.faultAction h .breakFault) s) :=
  State.foldl_keeps (R := State.KeepsPresent) (fun _ => .of_heads rfl) State.KeepsPresent.trans
      (fun t h => .faultAction t h _) l s

theorem State.KeepsPresent.applyPolicy (s : State) : s.KeepsPresent s.applyPolicy := by
  obtain ⟨st, r, c, b, a, e⟩ := s.requestStop_eq .fault
  rw [State.applyPolicy]
  split
  · rw [e]
    exact .of_heads rfl
  · exact .of_heads rfl

/-- A head that is neither ABSENT nor LOST is neither after the handover. -/
theorem State.KeepsPresent.handover (s : State) (n : Nat) : s.KeepsPresent (s.handover n) := by
  have added : s.KeepsPresent (s.addStitches n) :=
    State.foldl_keeps (R := State.KeepsPresent) (fun _ => .of_heads rfl) State.KeepsPresent.trans
      (fun t h => .addTo t h) headNumbers s
  by_cases breaks : s.breaks n
  · have broken : (s.addStitches n).KeepsPresent (s.broken n) := .faultAll (s.addStitches n).brokenHeads _
    rw [State.handover_breaks breaks]
    exact (added.trans broken).trans (.applyPolicy _)
  · rw [State.handover_whole breaks]
    exact added

/-! ### The rollback (R89) -/

/-- The Sequencer at the executed point, with what becomes pending again (R89). -/
def State.rewound (s : State) : Sequencer :=
  { cursor := s.run.cursor, design := s.run.design, frame := s.run.frame, ramp := s.seq.ramp, split := none, halt := none,
    buffer := none,
    haltFlag := s.seq.haltFlag && !((s.queue.issued ++ s.queue.prepared).any fun k => decide (k.kind = .halt)),
    approach := s.seq.approach || (s.queue.issued ++ s.queue.prepared).any fun k => decide (k.role = .approach) }

theorem State.rollback_rewinds (s : State) : ∃ a, s.rollback =
    ((s.withQueue { s.queue with issued := [], prepared := [] }).withSeq s.rewound).withArbiter a :=
  State.dropRead_eq _ .sequencer

end Sys2Proof.Machine
end

section
/-! PROOF SUPPORT. Reports that the machine is at rest (R84, R87 to R89): the tokens a report names, the Sequencer at the
executed point afterwards, and the run after the handover. -/

namespace Sys2Proof.Machine

open Sys2Proof

variable {s t u p : State} {n : Nat} {k : Token} {before after done rest : List Token}

/-! ### The tokens a report names (R84, R86, R87) -/

theorem issuedCount_first (named : k.seq = n) (first : ∀ x ∈ before, x.seq ≠ n) :
    issuedCount n ((before ++ [k]) ++ after) = some (before ++ [k]).length := by
  induction before with
  | nil => exact if_pos named
  | cons x before ih =>
    obtain ⟨other, others⟩ := List.forall_mem_cons.mp first
    rw [List.cons_append, List.cons_append, issuedCount, if_neg other, ih others]
    rfl

theorem issuedCount_none {l : List Token} (none : ∀ x ∈ l, x.seq ≠ n) : issuedCount n l = .none := by
  induction l with
  | nil => rfl
  | cons x l ih =>
    obtain ⟨other, others⟩ := List.forall_mem_cons.mp none
    rw [issuedCount, if_neg other, ih others]
    rfl

theorem haltOf_concat (halt : k.kind = .halt) : haltOf (before ++ [k]) = some k := by
  rw [haltOf, List.getLast?_concat]
  exact if_pos halt

theorem haltOf_none {l : List Token} (none : ∀ x ∈ l, x.kind ≠ .halt) : haltOf l = .none := by
  unfold haltOf
  split
  · next x last => exact if_neg (none x (List.mem_of_getLast? last))
  · rfl

/-- The HALT at the end of a report is no STEP. -/
theorem stepsIn_halt (halt : k.kind = .halt) : stepsIn (before ++ [k]) = stepsIn before := by
  rw [stepsIn, List.filter_append, List.filter_cons_of_neg (by rw [halt]; decide), List.filter_nil, List.append_nil, stepsIn]

theorem stepsIn_travels (travels : ∀ x ∈ before, x.kind = .travel) : stepsIn before = 0 := by
  rw [stepsIn, List.length_eq_zero_iff, List.filter_eq_nil_iff]
  intro x mem
  rw [travels x mem]
  decide

/-! ### A report's completions and its rest -/

theorem State.take_issued (issued : s.queue.issued = done ++ rest) : s.queue.issued.take done.length = done := by
  rw [issued, List.take_left']
  rfl

theorem State.completeReport_issued (issued : s.queue.issued = done ++ rest) :
    s.completeReport done.length = (s.completeTokens done.length).handover (stepsIn done) := by
  rw [State.completeReport, State.take_issued issued]

theorem State.takeStopped_issued (issued : s.queue.issued = done ++ rest) :
    s.takeStopped done.length = (s.completeReport done.length).comeToRest (haltOf done) := by
  rw [State.takeStopped, State.take_issued issued]

/-- A DONE that completes a HALT does what a STOPPED does (R87). -/
theorem State.takeDone_halt (issued : s.queue.issued = done ++ rest) (halt : haltOf done = some k) :
    s.takeDone done.length = s.takeStopped done.length := by
  rw [State.takeStopped_issued issued, halt, State.takeDone, State.take_issued issued, halt]

theorem State.OnlyReport.completeReport (issued : s.queue.issued = done ++ rest) :
    (done.foldl State.completed s).OnlyReport (s.completeReport done.length) := by
  rw [State.completeReport_issued issued]
  exact (State.OnlyReport.completeTokens issued).trans (.handover _ _)

/-- The queue emptied and the Sequencer rolled back to the executed point of `p` (R88, R89), but for the ramp count and the
halt flag. -/
structure State.RestsAt (p t : State) : Prop where
  portM : t.portM = p.portM
  queue : t.queue = { p.queue with issued := [], prepared := [] }
  cursor : t.run.cursor = p.run.cursor
  design : t.run.design = p.run.design
  frame : t.run.frame = p.run.frame
  seq : t.seq = { p.rewound with ramp := t.seq.ramp, haltFlag := t.seq.haltFlag }

theorem State.RestsAt.rollback (h : p.OnlyReport t) : p.RestsAt t.rollback ∧
    t.rollback.seq = p.rewound := by
  obtain ⟨a, e⟩ := t.rollback_rewinds
  have seq : t.rewound = p.rewound := by
    rw [h.eq]
    rfl
  rw [e]
  refine ⟨⟨?_, ?_, ?_, ?_, ?_, ?_⟩, seq⟩
  · rw [h.eq]; rfl
  · rw [h.eq]; rfl
  · rw [h.eq]; rfl
  · rw [h.eq]; rfl
  · rw [h.eq]; rfl
  · exact congrArg (fun q : Sequencer => { q with ramp := t.rewound.ramp, haltFlag := t.rewound.haltFlag }) seq

/-- What keeps the point of a state at rest leaves it at rest. -/
theorem State.RestsAt.keeps (h : p.RestsAt t) (keeps : t.KeepsPoint u) : p.RestsAt u := by
  obtain ⟨portM, queue, cursor, design, frame, seq⟩ := State.point_iff.mp keeps.point
  have empty : u.seq.buffer = none := keeps.buffer (by rw [h.seq]; rfl)
  refine ⟨portM.trans h.portM, queue.trans h.queue, cursor.trans h.cursor, design.trans h.design, frame.trans h.frame, ?_⟩
  rw [empty] at seq
  rw [seq, h.seq]
  rfl

theorem State.RestsAt.unhalted (h : p.RestsAt t) : p.RestsAt t.unhalted :=
  ⟨h.portM, h.queue, h.cursor, h.design, h.frame,
    congrArg (fun q : Sequencer => { q with haltFlag := false }) h.seq⟩

theorem State.RestsAt.comeToRest (h : p.OnlyReport t) (halt : Option Token) : p.RestsAt (t.comeToRest halt) := by
  have rolled := (State.RestsAt.rollback h).1
  cases halt with
  | none => exact rolled.keeps (.stoppedOutcome _)
  | some k => exact rolled.unhalted.keeps (.resolveHalt k)

theorem State.setRunState_ramp (s : State) (v : RunState) : (s.setRunState v).seq.ramp = s.seq.ramp := by
  obtain ⟨b, a, e⟩ := s.setRunState_eq v
  rw [e]
  rfl

theorem State.post_ramp (s : State) (k : EventKind) (head : Nat) (param : BitVec 32) :
    (s.post k head param).seq.ramp = s.seq.ramp := by
  obtain ⟨q, e⟩ := s.post_eq k head param
  rw [e]
  rfl

/-- A STOPPED without a HALT leaves the ramp count. -/
theorem State.stoppedOutcome_ramp (s : State) : s.stoppedOutcome.seq.ramp = s.seq.ramp := by
  have fault : s.enterFault.seq.ramp = s.seq.ramp := by
    unfold State.enterFault
    dsimp only
    rw [State.post_ramp]
    split
    · next j _ =>
      obtain ⟨q, e⟩ := (s.setRunState .fault).damageSlot_eq j
      rw [e]
      exact s.setRunState_ramp .fault
    · exact s.setRunState_ramp .fault
  unfold State.stoppedOutcome
  split
  · split
    · exact fault
    · split
      · exact (State.post_ramp _ _ _ _).trans (s.setRunState_ramp _)
      · exact (State.post_ramp _ _ _ _).trans (s.setRunState_ramp _)
  · exact (State.post_ramp _ _ _ _).trans (s.setRunState_ramp _)
  · rfl

/-- A STOPPED without a HALT leaves the halt flag of the rollback. -/
theorem State.stoppedOutcome_haltFlag (s : State) : s.stoppedOutcome.seq.haltFlag = s.seq.haltFlag := by
  obtain ⟨-, -, -, -, -, seq⟩ := State.point_iff.mp (State.KeepsPoint.stoppedOutcome s).point
  exact (congrArg Sequencer.haltFlag seq).trans rfl

/-! ### The run after completions and handover -/

/-- What a rollback leaves to be read besides the queue, the Sequencer and the arbiter. -/
theorem State.rollback_leaves (s : State) : s.rollback.run = s.run ∧ s.rollback.heads = s.heads ∧
    s.rollback.repairs = s.repairs ∧ s.rollback.events = s.events ∧ s.rollback.slots = s.slots ∧
    s.rollback.inhibit = s.inhibit ∧ s.rollback.classes = s.classes := by
  obtain ⟨a, e⟩ := s.rollback_rewinds
  rw [e]
  exact ⟨rfl, rfl, rfl, rfl, rfl, rfl, rfl⟩

/-- The completions of a MAIN pass leave heads, constants, run state and stop reason. -/
theorem State.completeTokens_main (main : s.run.pass = .main) (issued : s.queue.issued = done ++ rest) :
    (s.completeTokens done.length).heads = s.heads ∧ (s.completeTokens done.length).constants = s.constants ∧
    (s.completeTokens done.length).run.state = s.run.state ∧
    (s.completeTokens done.length).run.stopReason = s.run.stopReason := by
  have only := (State.OnlyRepairs.completeTokens main issued).eq
  obtain ⟨b, e⟩ := s.foldl_completed done
  rw [e] at only
  rw [only]
  exact ⟨rfl, rfl, rfl, rfl⟩

theorem State.breaks_congr (heads : t.heads = s.heads) (constants : t.constants = s.constants) (n : Nat) :
    t.breaks n ↔ s.breaks n := by
  have head : ∀ h, t.head h = s.head h := fun h => congrArg (Table.get (fun _ => HeadRecord.reset) · h) heads
  simp only [State.breaks, head, constants]

section main

variable (main : s.run.pass = .main) (issued : s.queue.issued = done ++ rest)
include main issued

/-- In RUNNING in a MAIN pass a report stops the run where a thread breaks at its handover, or lets it go on (R139). -/
theorem State.completeReport_running (running : s.run.state = .running) :
    (¬ s.breaks (stepsIn done) → (s.completeReport done.length).run.state = .running ∧
      (s.completeReport done.length).run.stopReason = s.run.stopReason) ∧
    (s.breaks (stepsIn done) → s.constants.faultPolicy = .stopAll → (s.completeReport done.length).run.state = .stopping ∧
      (s.completeReport done.length).run.stopReason = .fault) ∧
    ((s.completeReport done.length).run.state = .running ∨ (s.completeReport done.length).run.state = .stopping ∧
      (s.completeReport done.length).run.stopReason = .fault) := by
  obtain ⟨heads, constants, state, reason⟩ := State.completeTokens_main main issued
  have breaks := State.breaks_congr heads constants (stepsIn done)
  rw [State.completeReport_issued issued]
  obtain ⟨whole, broken, either⟩ := State.handover_running (state.trans running) (stepsIn done)
  refine ⟨fun none => ?_, fun some all => ?_, either⟩
  · rw [whole fun b => none (breaks.mp b)]
    exact ⟨state.trans running, reason⟩
  · rw [broken (breaks.mpr some) (by rw [constants]; exact all)]
    exact ⟨rfl, rfl⟩

theorem State.completeReport_stopping (stopping : s.run.state = .stopping) :
    (s.completeReport done.length).run.state = .stopping ∧
      (s.completeReport done.length).run.stopReason = s.run.stopReason := by
  obtain ⟨-, -, state, reason⟩ := State.completeTokens_main main issued
  rw [State.completeReport_issued issued, State.handover_stopping (state.trans stopping)]
  exact ⟨state.trans stopping, reason⟩

theorem State.KeepsPresent.completeReport : s.KeepsPresent (s.completeReport done.length) := by
  rw [State.completeReport_issued issued]
  exact (State.KeepsPresent.of_heads (State.completeTokens_main main issued).1).trans (.handover _ _)

end main

end Sys2Proof.Machine
end

section
/-! PROOF SUPPORT. O37: a HALT reported by DONE or STOPPED (R70, R86 to R89). -/

namespace Sys2Proof.Machine

open Sys2Proof

variable {s t : State} {n : Nat} {k : Token} {before after done : List Token}

theorem State.colourEntry_congr (slots : t.slots = s.slots) (armed : t.run.armedSlot = s.run.armedSlot) (b : Nat) :
    t.colourEntry b = s.colourEntry b := by
  rw [State.colourEntry, State.colourEntry, State.armedRecord, State.armedRecord, armed]
  simp only [State.slot_congr slots]

theorem State.barred_congr (inhibit : t.inhibit = s.inhibit) (needle : t.run.needle = s.run.needle) (h : Nat) :
    t.barred h = s.barred h := by
  rw [State.barred, State.barred, State.inhibitRow, State.inhibitRow, inhibit, needle]

/-! ### The state in which a halt is resolved -/

/-- Completions, their handover and the rollback (R85, R86, R89). -/
def State.rolled (s : State) (done : List Token) : State := (s.completeReport done.length).rollback

section reported

variable (issued : s.queue.issued = done ++ after)
include issued

theorem State.takeStopped_rolled : s.takeStopped done.length =
    match haltOf done with
    | some k => (s.rolled done).resolveHalt k
    | none => (s.rolled done).stoppedOutcome := by
  rw [State.takeStopped_issued issued]
  cases haltOf done <;> rfl

/-- The point after a rollback, and what the report leaves alone. -/
theorem State.rolled_run : (s.rolled done).run = { s.run with
      frame := (done.getLast?.map (·.frameAfter)).getD s.run.frame,
      cursor := ((done.filter (·.lastOfRecord)).getLast?.map (·.index + 1)).getD s.run.cursor,
      design := ((done.filter (·.lastOfRecord)).getLast?.map (·.designAfter)).getD s.run.design,
      colourBlock := (done.foldl State.completed s).run.colourBlock, state := (s.rolled done).run.state,
      stopReason := (s.rolled done).run.stopReason, outstanding := (s.rolled done).run.outstanding } ∧
    (s.rolled done).slots = s.slots ∧ (s.rolled done).inhibit = s.inhibit := by
  have left := (State.OnlyReport.completeReport issued).eq
  obtain ⟨b, completed⟩ := s.foldl_completed done
  rw [completed] at left ⊢
  unfold State.rolled
  generalize s.completeReport done.length = c at left ⊢
  obtain ⟨run, -, -, -, slots, inhibit, -⟩ := c.rollback_leaves
  rw [run, slots, inhibit]
  exact ⟨(congrArg State.run left).trans rfl, (congrArg State.slots left).trans rfl, (congrArg State.inhibit left).trans rfl⟩

/-- In RUNNING in a MAIN pass the report leaves the run RUNNING, or STOPPING for a thread that breaks at its handover
(R86, R139). -/
theorem State.rolled_running (main : s.run.pass = .main) (running : s.run.state = .running) :
    (¬ s.breaks (stepsIn done) → (s.rolled done).run.state = .running ∧ (s.rolled done).run.stopReason = s.run.stopReason) ∧
    (s.breaks (stepsIn done) → s.constants.faultPolicy = .stopAll →
      (s.rolled done).run.state = .stopping ∧ (s.rolled done).run.stopReason = .fault) ∧
    ((s.rolled done).run.state = .running ∨
      (s.rolled done).run.state = .stopping ∧ (s.rolled done).run.stopReason = .fault) := by
  have report := State.completeReport_running main issued running
  unfold State.rolled
  generalize s.completeReport done.length = c at report ⊢
  rw [c.rollback_leaves.1]
  exact report

theorem State.rolled_stopping (main : s.run.pass = .main) (stopping : s.run.state = .stopping) :
    (s.rolled done).run.state = .stopping ∧ (s.rolled done).run.stopReason = s.run.stopReason := by
  have report := State.completeReport_stopping main issued stopping
  unfold State.rolled
  generalize s.completeReport done.length = c at report ⊢
  rw [c.rollback_leaves.1]
  exact report

theorem State.KeepsPresent.rolled (main : s.run.pass = .main) : s.KeepsPresent (s.rolled done) := by
  have report := State.KeepsPresent.completeReport main issued
  unfold State.rolled
  generalize s.completeReport done.length = c at report ⊢
  exact report.trans (.of_heads c.rollback_leaves.2.1)

end reported

/-- In RUNNING, or STOPPING for a broken thread: where PAUSE, END and COLOUR lead (R70). -/
theorem State.resolveHalt_outcomes
    (live : s.run.state = .running ∨ s.run.state = .stopping ∧ s.run.stopReason = .fault) :
    (k.reason = some .pause → (s.resolveHalt k).run.state = .paused ∧
      (s.resolveHalt k).run.stopReason = if s.run.state = .running then .pause else .fault) ∧
    (k.reason = some .endRecord → (s.resolveHalt k).run.state = .finished ∧
      ((s.resolveHalt k).run.stopReason = if s.run.state = .running then .endOfDesign else .fault) ∧
      (s.resolveHalt k).run.outstanding = decide ((s.resolveHalt k).repairs ≠ [])) ∧
    (k.reason = some .colour → (∃ h ∈ headNumbers, s.present h = true) →
      (s.resolveHalt k).run.state = .changing ∧ (s.resolveHalt k).run.colourBlock = s.run.colourBlock ∧
      ∃ c, (s.resolveHalt k).change = some c ∧ c.target = (s.colourEntry s.run.colourBlock).needle ∧
        c.action = if s.run.state = .running then entryAction (s.colourEntry s.run.colourBlock).action else .pause) := by
  obtain ⟨-, pause, finish, colourRunning, colourStopping, -⟩ := haltResolvesByReason s k
  rcases live with running | ⟨stopping, fault⟩
  · rw [if_pos running, if_pos running, if_pos running]
    rw [if_pos running] at pause finish
    refine ⟨fun reason => ?_, fun reason => ?_, fun reason present => ?_⟩
    · obtain ⟨run, -⟩ := pause (.inl running) reason
      rw [run]
      exact ⟨rfl, rfl⟩
    · obtain ⟨run, -⟩ := finish (.inl running) reason
      rw [run]
      exact ⟨rfl, rfl, rfl⟩
    · obtain ⟨run, change, -⟩ := colourRunning running reason present
      rw [run]
      exact ⟨rfl, rfl, _, change, rfl, rfl⟩
  · have still : s.run.state ≠ .running := by rw [stopping]; nofun
    have live : s.run.state = .stopping ∧ s.run.stopReason ≠ .memory ∧ s.run.stopReason ≠ .repairDone := by
      rw [fault]
      exact ⟨stopping, nofun, nofun⟩
    rw [if_neg still, if_neg still, if_neg still]
    rw [if_neg still] at pause finish
    refine ⟨fun reason => ?_, fun reason => ?_, fun reason present => ?_⟩
    · obtain ⟨run, -⟩ := pause (.inr live) reason
      rw [run, fault]
      exact ⟨rfl, rfl⟩
    · obtain ⟨run, -⟩ := finish (.inr live) reason
      rw [run, fault]
      exact ⟨rfl, rfl, rfl⟩
    · obtain ⟨run, change, -⟩ := colourStopping live reason present
      rw [run]
      exact ⟨rfl, rfl, _, change, rfl, rfl⟩

/-! ### A MAIN pass (R70, R85, R86) -/

/-- A completion at the end of a record. -/
theorem State.completed_last (s : State) (last : k.lastOfRecord = true) :
    (s.completed k).run.cursor = k.index + 1 ∧ (s.completed k).run.design = k.designAfter ∧
    (k.reason = some .colour → (s.completed k).run.colourBlock = s.run.colourBlock + 1) :=
  ⟨if_pos last, if_pos last, fun colour => if_pos ⟨last, colour⟩⟩

/-- A HALT reported in RUNNING finds the run RUNNING, or STOPPING for a thread that breaks at its handover. -/
theorem State.rolled_halt (issued : s.queue.issued = (before ++ [k]) ++ after) (halt : k.kind = .halt)
    (main : s.run.pass = .main) (running : s.run.state = .running)
    (stops : s.breaks (stepsIn before) ∧ s.constants.faultPolicy = .stopAll ∨ ¬ s.breaks (stepsIn before)) :
    ((s.rolled (before ++ [k])).run.state = .running ∨
      (s.rolled (before ++ [k])).run.state = .stopping ∧ (s.rolled (before ++ [k])).run.stopReason = .fault) ∧
    ((s.rolled (before ++ [k])).run.state = .running ↔ ¬ s.breaks (stepsIn before)) := by
  obtain ⟨whole, broken, either⟩ := State.rolled_running issued main running
  rw [stepsIn_halt halt] at whole broken
  refine ⟨either, fun now breaks => ?_, fun none => (whole none).1⟩
  obtain ⟨-, all⟩ | none := stops
  · rw [(broken breaks all).1] at now
    cases now
  · exact none breaks

/-- The colour block that follows a COLOUR halt, and its entry. -/
theorem State.rolled_colour (issued : s.queue.issued = (before ++ [k]) ++ after) (last : k.lastOfRecord = true)
    (plain : ∀ x ∈ before, x.kind ≠ .halt ∧ x.reason = none) (colour : k.reason = some .colour) :
    (s.rolled (before ++ [k])).run.colourBlock = s.run.colourBlock + 1 ∧
    ∀ b, (s.rolled (before ++ [k])).colourEntry b = s.colourEntry b := by
  obtain ⟨run, slots, -⟩ := State.rolled_run issued
  have plainly : (before.foldl State.completed s).run.colourBlock = s.run.colourBlock :=
    s.foldl_completed_block fun x mem closes => by
      rw [(plain x mem).2] at closes
      cases closes.2
  refine ⟨?_, State.colourEntry_congr slots (by rw [run])⟩
  rw [run, List.foldl_append]
  exact ((before.foldl State.completed s).completed_last last).2.2 colour |>.trans (congrArg (· + 1) plainly)

/-! ### A JOIN of a REPAIR pass (R150) -/

theorem lastOfRecord_travels (last : k.lastOfRecord = false)
    (travels : ∀ x ∈ before, x.kind = .travel ∧ x.lastOfRecord = false) :
    ∀ x ∈ before ++ [k], x.lastOfRecord = false := by
  intro x mem
  obtain mem | mem := List.mem_append.mp mem
  · exact (travels x mem).2
  · rw [List.mem_singleton.mp mem]
    exact last

section join

variable (issued : s.queue.issued = (before ++ [k]) ++ after) (halt : k.kind = .halt) (last : k.lastOfRecord = false)
  (travels : ∀ x ∈ before, x.kind = .travel ∧ x.lastOfRecord = false)
  (sews : ∀ h ∈ headNumbers, (s.head h).state = .active → (s.head h).noMotion < s.constants.motionLimit)
include issued halt last travels sews

/-- Without a STEP, and within a record, the report changes only the point. -/
theorem State.completeReport_join :
    ((before ++ [k]).foldl State.completed s).OnlyHeads (s.completeReport (before ++ [k]).length) ∧
    ∀ h ∈ headNumbers, (s.completeReport (before ++ [k]).length).head h = s.head h := by
  have still : stepsIn (before ++ [k]) = 0 := (stepsIn_halt halt).trans (stepsIn_travels fun x mem => (travels x mem).1)
  obtain ⟨b, point⟩ := s.foldl_completed (before ++ [k])
  have head : ∀ h, ((before ++ [k]).foldl State.completed s).head h = s.head h := fun h => by
    rw [point]
    rfl
  have constants : ((before ++ [k]).foldl State.completed s).constants = s.constants := by
    rw [point]
    rfl
  rw [State.completeReport_issued issued, State.completeTokens_within (lastOfRecord_travels last travels) issued, still]
  generalize (before ++ [k]).foldl State.completed s = p at head constants
  have whole : ¬ p.breaks 0 := by
    rintro ⟨h, mem, active, broken⟩
    rw [head] at active broken
    rw [constants] at broken
    have := sews h mem active
    omega
  rw [State.handover_whole whole]
  refine ⟨.addStitches p 0, fun h mem => ?_⟩
  rw [State.head_addStitches p 0 mem, head]
  split
  · next active =>
    have below := sews h mem active
    rw [constants, Nat.add_zero, Nat.min_eq_left below.le]
  · rfl

/-- The point at which a JOIN is resolved. -/
theorem State.rolled_join :
    (s.rolled (before ++ [k])).run = { s.run with
      frame := k.frameAfter, outstanding := (s.rolled (before ++ [k])).run.outstanding } ∧
    (s.rolled (before ++ [k])).events = s.events ∧ (s.rolled (before ++ [k])).inhibit = s.inhibit ∧
    ∀ h ∈ headNumbers, (s.rolled (before ++ [k])).head h = s.head h := by
  obtain ⟨only, head⟩ := State.completeReport_join issued halt last travels sews
  have within := lastOfRecord_travels last travels
  have none : (before ++ [k]).filter (·.lastOfRecord) = [] :=
    List.filter_eq_nil_iff.mpr fun x mem => by rw [within x mem]; exact Bool.false_ne_true
  have block : ((before ++ [k]).foldl State.completed s).run.colourBlock = s.run.colourBlock :=
    s.foldl_completed_block fun x mem closes => Bool.false_ne_true ((within x mem).symm.trans closes.1)
  obtain ⟨b, point⟩ := s.foldl_completed (before ++ [k])
  rw [point] at block
  rw [none, List.getLast?_concat, show b = s.run.colourBlock from block] at point
  have left := only.eq
  rw [point] at left
  unfold State.rolled
  generalize s.completeReport (before ++ [k]).length = c at left head ⊢
  obtain ⟨run, heads, -, events, -, inhibit, -⟩ := c.rollback_leaves
  rw [run, events, inhibit]
  refine ⟨?_, (congrArg State.events left).trans rfl, (congrArg State.inhibit left).trans rfl, fun h mem => ?_⟩
  · exact (congrArg State.run left).trans rfl
  · exact (congrArg (Table.get (fun _ => HeadRecord.reset) · h) heads).trans (head h mem)

end join

end Sys2Proof.Machine
end

section
/-! PROOF SUPPORT. STOPPED and DONE through their frame (R84, R88), and O37. -/

namespace Sys2Proof.Machine

open Sys2Proof

variable {s t : State} {form n : Nat} {k : Token} {before after done rest : List Token}

/-! ### Reports through their frame -/

theorem State.foldl_completed_portM (s : State) (done : List Token) : (done.foldl State.completed s).portM = s.portM := by
  obtain ⟨b, e⟩ := s.foldl_completed done
  rw [e]
  rfl

theorem State.RestsAt.takeStopped (issued : s.queue.issued = done ++ rest) :
    (done.foldl State.completed s).RestsAt (s.takeStopped done.length) := by
  rw [State.takeStopped_issued issued]
  exact .comeToRest (.completeReport issued) _

/-- A STOPPED that is taken, through its frame and its reply. -/
theorem State.stopped_onFrame (takes : s.takesFrame .m = true) (issued : s.queue.issued = done ++ rest)
    (count : s.stoppedCount form n = some done.length) :
    s.onFrame .m (fun t => t.stoppedReport form n) =
      ((s.framedOn .m).takeStopped done.length).reportReply done.length ∧
    s.answers (((s.framedOn .m).takeStopped done.length).reportReply done.length) .m .ok
      (beBytes 1 done.length ++ beBytes 3 ((s.framedOn .m).takeStopped done.length).run.cursor) := by
  refine State.repliedOn (body := fun t => t.stoppedReport form n) takes ?_ ?_
  · have counted : (s.framedOn .m).stoppedCount form n = some done.length := count
    simp only [State.stoppedReport, counted]
    rfl
  · have rests := State.RestsAt.takeStopped (s := s.framedOn .m) (done := done) (rest := rest) issued
    exact rests.portM.trans (State.foldl_completed_portM _ _)

theorem State.stoppedCount_named (issued : s.queue.issued = (before ++ [k]) ++ after) (named : k.seq = n)
    (first : ∀ x ∈ before, x.seq ≠ n) : s.stoppedCount 0 n = some (before ++ [k]).length := by
  simp only [State.stoppedCount, if_true, issued, issuedCount_first named first]

/-- A DONE that names a HALT, through its frame, is the STOPPED that names it (R87). -/
theorem State.done_onFrame (takes : s.takesFrame .m = true) (issued : s.queue.issued = (before ++ [k]) ++ after)
    (named : k.seq = n) (first : ∀ x ∈ before, x.seq ≠ n) (halt : k.kind = .halt) :
    s.onFrame .m (fun t => t.doneReport n) = s.onFrame .m (fun t => t.stoppedReport 0 n) := by
  have framed : (s.framedOn .m).queue.issued = (before ++ [k]) ++ after := issued
  rw [State.onFrame_taken s .m _ takes, State.onFrame_taken s .m _ takes]
  change (s.framedOn .m).doneReport n = (s.framedOn .m).stoppedReport 0 n
  simp only [State.doneReport, State.stoppedReport, State.stoppedCount_named framed named first, framed,
    issuedCount_first named first]
  rw [State.takeDone_halt framed (haltOf_concat halt)]

/-! ### O37 -/

section halts

variable (issued : s.queue.issued = (before ++ [k]) ++ after) (halt : k.kind = .halt)
include issued halt

theorem State.takeStopped_halt :
    s.takeStopped (before ++ [k]).length = (s.rolled (before ++ [k])).resolveHalt k := by
  rw [State.takeStopped_rolled issued, haltOf_concat halt]

/-- The queue and the Sequencer once a HALT has been reported (R88, R89). -/
theorem State.takeStopped_point (ht : t = s.takeStopped (before ++ [k]).length) : t.queue.issued = [] ∧ t.queue.prepared = [] ∧
    t.queue.lastDone = some k.seq ∧ t.run.frame = k.frameAfter ∧ t.seq.haltFlag = false ∧ t.seq.cursor = t.run.cursor ∧
    t.seq.design = t.run.design ∧ t.seq.frame = t.run.frame := by
  have rests := State.RestsAt.takeStopped issued
  rw [← ht, List.foldl_append] at rests
  refine ⟨?_, ?_, ?_, rests.frame, ?_, ?_, ?_, ?_⟩
  · rw [rests.queue]
  · rw [rests.queue]
  · rw [rests.queue]; rfl
  · rw [ht, State.takeStopped_halt issued halt]
    exact State.resolveHalt_haltFlag k
  · rw [rests.seq, rests.cursor]; rfl
  · rw [rests.seq, rests.design]; rfl
  · rw [rests.seq, rests.frame]; rfl

/-- A HALT reported in RUNNING in a MAIN pass (R70, R139). -/
theorem State.takeStopped_halt_main (ht : t = s.takeStopped (before ++ [k]).length) (main : s.run.pass = .main)
    (running : s.run.state = .running) (last : k.lastOfRecord = true)
    (plain : ∀ x ∈ before, x.kind ≠ .halt ∧ x.reason = none) :
    t.run.cursor = k.index + 1 ∧ t.run.design = k.designAfter ∧
    (s.breaks (stepsIn before) ∧ s.constants.faultPolicy = .stopAll ∨ ¬ s.breaks (stepsIn before) →
      (k.reason = some .pause →
        t.run.state = .paused ∧ t.run.stopReason = if s.breaks (stepsIn before) then .fault else .pause) ∧
      (k.reason = some .endRecord →
        t.run.state = .finished ∧ (t.run.stopReason = if s.breaks (stepsIn before) then .fault else .endOfDesign) ∧
        t.run.outstanding = decide (t.repairs ≠ [])) ∧
      (k.reason = some .colour → (∃ h ∈ headNumbers, s.present h = true) →
        t.run.state = .changing ∧ t.run.colourBlock = s.run.colourBlock + 1 ∧
        ∃ c, t.change = some c ∧ c.target = (s.colourEntry (s.run.colourBlock + 1)).needle ∧
          c.action = if s.breaks (stepsIn before) then .pause
            else entryAction (s.colourEntry (s.run.colourBlock + 1)).action)) := by
  have rests := State.RestsAt.takeStopped issued
  rw [← ht, List.foldl_append] at rests
  obtain ⟨cursor, design, -⟩ := (before.foldl State.completed s).completed_last last
  refine ⟨rests.cursor.trans cursor, rests.design.trans design, fun stops => ?_⟩
  obtain ⟨live, runs⟩ := State.rolled_halt issued halt main running stops
  obtain ⟨pause, finish, colour⟩ := State.resolveHalt_outcomes (k := k) live
  rw [← State.takeStopped_halt issued halt, ← ht] at pause finish colour
  simp only [runs, ite_not] at pause finish colour
  refine ⟨pause, finish, fun reason present => ?_⟩
  obtain ⟨block, entry⟩ := State.rolled_colour issued last plain reason
  rw [block, entry] at colour
  obtain ⟨h, mem, now⟩ := present
  exact colour reason ⟨h, mem, State.KeepsPresent.rolled issued main h now⟩

/-- A JOIN reported alone or after TRAVELs (R150). -/
theorem State.takeStopped_join (ht : t = s.takeStopped (before ++ [k]).length) (join : k.reason = some .join)
    (last : k.lastOfRecord = false) (travels : ∀ x ∈ before, x.kind = .travel ∧ x.lastOfRecord = false)
    (sews : ∀ h ∈ headNumbers, (s.head h).state = .active → (s.head h).noMotion < s.constants.motionLimit)
    (live : s.run.state = .running ∨
      s.run.state = .stopping ∧ s.run.stopReason ≠ .memory ∧ s.run.stopReason ≠ .repairDone) :
    t.run = { s.run with
      frame := k.frameAfter, outstanding := t.run.outstanding,
      state := if s.run.state = .running then .running else .paused } ∧
    (s.run.state = .running → t.events = s.events) ∧
    (s.run.state = .stopping → t.posted [(.runStopped, 0, BitVec.ofNat 32 (s.run.stopReason.code % 16))]) ∧
    ∀ h ∈ headNumbers,
      if (s.head h).state = .waiting ∧ (s.head h).joinIndex = some s.run.cursor then
        if s.barred h = true then t.head h = { s.head h with state := .heldNeedle, cause := none }
        else t.head h = { s.head h with state := .active, cause := none, noMotion := 0, tension := 0,
                                        lastMotion := s.run.cursor } ∧
          ∀ e ∈ t.repairs, e.head = h → e.fromIndex = s.run.cursor → e.sewing = true
      else t.head h = s.head h := by
  obtain ⟨run, events, inhibit, head⟩ := State.rolled_join issued halt last travels sews
  have barred := State.barred_congr inhibit (by rw [run])
  have joined := State.resolveHalt_join (s := s.rolled (before ++ [k])) join (by rw [run]; exact live)
  rw [← State.takeStopped_halt issued halt, ← ht, events] at joined
  generalize s.rolled (before ++ [k]) = r at run head barred joined
  obtain ⟨heads, left, quiet, posted⟩ := joined
  rw [run] at left quiet posted
  refine ⟨left, quiet, posted, fun h mem => ?_⟩
  have one := heads h mem
  rw [State.Joined, head h mem, barred, run] at one
  split
  · next joins =>
    rw [if_pos joins] at one
    split
    · next held => rw [if_pos held] at one; exact one.1
    · next free => rw [if_neg free] at one; exact one
  · next apart => rw [if_neg apart] at one; exact one

end halts

/-- Settles O37: a DONE that names a HALT is the STOPPED that names it, and the halt is resolved at the state rolled back. -/
theorem haltReportsThroughExec : Obligations.HaltReportsThroughExec := by
  intro s n before after k takes issued named first halt
  have through : s.queue.issued = (before ++ [k]) ++ after := by rw [issued, List.append_assoc, List.singleton_append]
  have same := State.done_onFrame takes through named first halt
  obtain ⟨ran, -⟩ := State.stopped_onFrame takes through (State.stoppedCount_named through named first)
  have framed : (s.framedOn .m).queue.issued = (before ++ [k]) ++ after := through
  refine ⟨congrArg Host.Outcome.next same, _, congrArg Host.Outcome.next (same.trans ran), ?_⟩
  generalize ht : (s.framedOn .m).takeStopped (before ++ [k]).length = t
  obtain ⟨none, bare, done, frame, flag, cursor, design, at_⟩ := State.takeStopped_point framed halt ht.symm
  refine ⟨none, bare, done.trans (congrArg some named), frame, flag, cursor, design, at_, ?_, ?_⟩
  · intro main running last plain steps breaks
    have left := State.takeStopped_halt_main framed halt ht.symm main running last plain
    exact left
  · intro _ join last travels sews live
    have left := State.takeStopped_join framed halt ht.symm join last travels sews live
    exact left

end Sys2Proof.Machine
end

section
/-! PROOF SUPPORT. O35: a STOPPED that completes no HALT (R67, R72, R88, R89). -/

namespace Sys2Proof.Machine

open Sys2Proof

variable {s t : State} {r : StopReason} {form n : Nat} {k : Token} {before done rest : List Token}

/-! ### A run that ends in FAULT or FINISHED (R72, R153) -/

/-- The run is STOPPING with reason `r`. -/
def State.EndsWith (r : StopReason) (s : State) : Prop := s.run.state = .stopping ∧ s.run.stopReason = r

theorem State.EndsWith.heads (ends : s.EndsWith r) (heads : s.OnlyHeads t) : t.EndsWith r := by
  rw [State.EndsWith, heads.run]
  exact ends

section kept

variable (ending : r = .memory ∨ r = .repairDone) (ends : s.EndsWith r)
include ending ends

/-- A Repair List found empty asks for REPAIR_DONE, which MEMORY goes before. -/
theorem State.EndsWith.checkPassEmptied : s.checkPassEmptied.EndsWith r := by
  obtain ⟨stopping, reason⟩ := ends
  unfold State.checkPassEmptied
  split
  · simp only [State.passEmptied, State.requestStop, stopping, true_and]
    split
    · next other =>
      obtain memory | done := ending
      · exact absurd (reason.trans memory) other
      · exact ⟨stopping, done.symm⟩
    · exact ⟨stopping, reason⟩
  · exact ⟨stopping, reason⟩

theorem State.EndsWith.completeFirst (k : Token) : (s.completeFirst k).EndsWith r := by
  cases last : k.lastOfRecord with
  | false =>
    rw [State.completeFirst_within last]
    exact ends
  | true =>
    rw [State.completeFirst_last last]
    have moved : (s.movedTo k).EndsWith r := ends
    obtain ⟨u, heads, told | told⟩ := (s.movedTo k).repairCursorMoved_heads k
    · have held := moved.heads heads
      rw [told]
      exact held
    · have held := (moved.heads heads).checkPassEmptied ending
      rw [told]
      exact held

/-- Completions and handover of a report leave the run STOPPING with that reason. -/
theorem State.EndsWith.rolled (issued : s.queue.issued = done ++ rest) : (s.rolled done).EndsWith r := by
  have completed : (s.completeTokens done.length).EndsWith r :=
    (State.completeTokens_keeps (P := State.EndsWith r) State.OnlyReport.refl State.OnlyReport.trans State.OnlyReport.completed
      (fun u now k _ => ⟨.completeFirst u k, now.completeFirst ending k⟩) ends issued State.OnlyReport.queue).2
  have report : (s.completeReport done.length).EndsWith r := by
    rw [State.completeReport_issued issued, State.EndsWith, State.handover_stopping completed.1]
    exact completed
  rw [State.EndsWith, State.rolled, (State.rollback_leaves _).1]
  exact report

end kept

/-! ### The run state after a STOPPED without a HALT (R67) -/

theorem State.stoppedOutcome_memory (ends : s.EndsWith .memory) : s.stoppedOutcome = s.enterFault := by
  simp only [State.stoppedOutcome, ends.1, ends.2, if_true]

theorem State.stoppedOutcome_repairDone (ends : s.EndsWith .repairDone) : s.stoppedOutcome = s.finishRepair := by
  simp only [State.stoppedOutcome, ends.1, ends.2, reduceCtorEq, if_true, if_false]

/-- PAUSED for reason `r`, with RUN_STOPPED. -/
structure State.PausedFor (r : StopReason) (t : State) : Prop where
  state : t.run.state = .paused
  reason : t.run.stopReason = r
  newest : t.posted [(.runStopped, 0, BitVec.ofNat 32 (r.code % 16))]

theorem State.PausedFor.posted (paused : t.PausedFor r) :
    t.posted [(.runStopped, 0, BitVec.ofNat 32 (t.run.stopReason.code % 16))] := by
  rw [paused.reason]
  exact paused.newest

theorem State.PausedFor.postStopped (paused : s.run.state = .paused) : s.postStopped.PausedFor s.run.stopReason := by
  refine ⟨?_, ?_, s.posted_postStopped⟩
  · rw [State.postStopped, State.post_run, paused]
  · rw [State.postStopped, State.post_run]

theorem State.stoppedOutcome_stopping (stopping : s.run.state = .stopping) (memory : s.run.stopReason ≠ .memory)
    (done : s.run.stopReason ≠ .repairDone) : s.stoppedOutcome.PausedFor s.run.stopReason := by
  have outcome : s.stoppedOutcome = (s.setRunState .paused).postStopped := by
    simp only [State.stoppedOutcome, stopping, memory, done, if_false]
  have paused := State.PausedFor.postStopped (s := s.setRunState .paused) (by rw [s.setRunState_run])
  rw [outcome]
  rw [s.setRunState_run] at paused
  exact paused

theorem State.stoppedOutcome_running (running : s.run.state = .running) : s.stoppedOutcome.PausedFor .motion := by
  have outcome : s.stoppedOutcome = ((s.setRunState .paused).setStopReason .motion).postStopped := by
    simp only [State.stoppedOutcome, running]
  rw [outcome]
  exact State.PausedFor.postStopped (s := (s.setRunState .paused).setStopReason .motion)
    ((congrArg RunRecord.state (s.setRunState_run .paused)).trans rfl)

section stopped

variable (issued : s.queue.issued = done ++ rest) (ht : t = s.takeStopped done.length)
include issued ht

/-- The executed point, the queue and the Sequencer after a STOPPED (R85, R88, R89). -/
theorem State.takeStopped_executed : t.queue.issued = [] ∧ t.queue.prepared = [] ∧ t.queue.nextSeq = s.queue.nextSeq ∧
    t.queue.lastDone = (match done.getLast? with | some k => some k.seq | none => s.queue.lastDone) ∧
    t.run.frame = (match done.getLast? with | some k => k.frameAfter | none => s.run.frame) ∧
    (match (done.filter (·.lastOfRecord)).getLast? with
      | some k => t.run.cursor = k.index + 1 ∧ t.run.design = k.designAfter
      | none => t.run.cursor = s.run.cursor ∧ t.run.design = s.run.design) ∧
    t.seq.cursor = t.run.cursor ∧ t.seq.design = t.run.design ∧ t.seq.frame = t.run.frame ∧ t.seq.split = none ∧
    t.seq.halt = none ∧ t.seq.buffer = none ∧
    t.seq.approach = (s.seq.approach || (rest ++ s.queue.prepared).any fun k => decide (k.role = .approach)) := by
  have rests := State.RestsAt.takeStopped issued
  obtain ⟨b, point⟩ := s.foldl_completed done
  rw [← ht, point, issued, List.drop_left] at rests
  refine ⟨?_, ?_, ?_, ?_, ?_, ?_, ?_, ?_, ?_, ?_, ?_, ?_, ?_⟩
  · rw [rests.queue]
  · rw [rests.queue]
  · rw [rests.queue]; rfl
  · rw [rests.queue]
    cases done.getLast? <;> rfl
  · rw [rests.frame]
    cases done.getLast? <;> rfl
  · rw [rests.cursor, rests.design]
    cases (done.filter (·.lastOfRecord)).getLast? <;> exact ⟨rfl, rfl⟩
  · rw [rests.seq, rests.cursor]; rfl
  · rw [rests.seq, rests.design]; rfl
  · rw [rests.seq, rests.frame]; rfl
  · rw [rests.seq]; rfl
  · rw [rests.seq]; rfl
  · rw [rests.seq]; rfl
  · rw [rests.seq]; rfl

variable (plain : ∀ k ∈ done, k.kind ≠ .halt)
include plain

theorem State.takeStopped_plain : t = (s.rolled done).stoppedOutcome := by
  rw [ht, State.takeStopped_rolled issued, haltOf_none plain]

/-- The ramp count stands, and the halt flag falls with a HALT discarded (R89). -/
theorem State.takeStopped_flags : t.seq.ramp = s.seq.ramp ∧
    t.seq.haltFlag = (s.seq.haltFlag && !(rest ++ s.queue.prepared).any fun k => decide (k.kind = .halt)) := by
  have seq := (State.RestsAt.rollback (State.OnlyReport.completeReport issued)).2
  obtain ⟨b, point⟩ := s.foldl_completed done
  rw [point, issued, List.drop_left] at seq
  change (s.rolled done).seq = _ at seq
  rw [State.takeStopped_plain issued ht plain, State.stoppedOutcome_ramp, State.stoppedOutcome_haltFlag, seq]
  exact ⟨rfl, rfl⟩

/-- From RUNNING and STOPPING in a MAIN pass the run is PAUSED (R67, R139). -/
theorem State.takeStopped_main (main : s.run.pass = .main) :
    (s.run.state = .stopping → s.run.stopReason ≠ .memory → s.run.stopReason ≠ .repairDone →
      t.PausedFor s.run.stopReason) ∧
    (s.run.state = .running → (t.PausedFor .motion ∨ t.PausedFor .fault) ∧
      (¬ s.breaks (stepsIn done) → t.PausedFor .motion) ∧
      (s.breaks (stepsIn done) → s.constants.faultPolicy = .stopAll → t.PausedFor .fault)) := by
  rw [State.takeStopped_plain issued ht plain]
  have faulted : (s.rolled done).run.state = .stopping → (s.rolled done).run.stopReason = .fault →
      (s.rolled done).stoppedOutcome.PausedFor .fault := fun stopping fault => by
    have paused := State.stoppedOutcome_stopping stopping (by rw [fault]; nofun) (by rw [fault]; nofun)
    rw [fault] at paused
    exact paused
  refine ⟨fun stopping memory repaired => ?_, fun running => ?_⟩
  · obtain ⟨state, reason⟩ := State.rolled_stopping issued main stopping
    rw [← reason] at memory repaired ⊢
    exact State.stoppedOutcome_stopping state memory repaired
  · obtain ⟨whole, broken, either⟩ := State.rolled_running issued main running
    refine ⟨?_, fun none => State.stoppedOutcome_running (whole none).1, fun breaks all => ?_⟩
    · obtain now | ⟨now, fault⟩ := either
      · exact .inl (State.stoppedOutcome_running now)
      · exact .inr (faulted now fault)
    · obtain ⟨now, fault⟩ := broken breaks all
      exact faulted now fault

/-- MEMORY leads to FAULT (R72). -/
theorem State.takeStopped_memory (ends : s.EndsWith .memory) :
    t.run.state = .fault ∧ t.run.stopReason = .memory ∧ t.run.faultChunk = s.run.faultChunk ∧
    (∀ j, s.run.armedSlot = some j → t.slot j =
      { s.slot j with state := if (s.slot j).state = .ready then .damaged else (s.slot j).state }) ∧
    ∀ c, s.run.faultChunk = some c → t.posted [(.memoryFault, 0, BitVec.ofNat 32 (c % 2 ^ 16))] := by
  have rolled := ends.rolled (.inl rfl) issued
  obtain ⟨run, slots, -⟩ := State.rolled_run issued
  rw [State.takeStopped_plain issued ht plain, State.stoppedOutcome_memory rolled, State.enterFault_run]
  have chunk : (s.rolled done).run.faultChunk = s.run.faultChunk := (congrArg RunRecord.faultChunk run).trans rfl
  have armed : (s.rolled done).run.armedSlot = s.run.armedSlot := (congrArg RunRecord.armedSlot run).trans rfl
  generalize s.rolled done = r at rolled slots chunk armed
  refine ⟨rfl, rolled.2, chunk, fun j named => ?_, fun c named => State.enterFault_posted (chunk.trans named)⟩
  rw [State.slot_enterFault (armed.trans named), State.slot_congr slots]

/-- REPAIR_DONE leads to FINISHED (R153). -/
theorem State.takeStopped_repairDone (ends : s.EndsWith .repairDone) :
    t.run.state = .finished ∧ t.run.stopReason = .repairDone ∧ t.slots = s.slots ∧ t.posted [(.repairDone, 0, 0)] := by
  have rolled := ends.rolled (.inr rfl) issued
  obtain ⟨-, kept, -⟩ := State.rolled_run issued
  rw [State.takeStopped_plain issued ht plain, State.stoppedOutcome_repairDone rolled]
  generalize s.rolled done = r at rolled kept
  obtain ⟨run, slots, posted⟩ := r.finishRepair_leaves
  rw [run]
  exact ⟨rfl, rolled.2, slots.trans kept, posted⟩

end stopped

/-! ### O35 -/

/-- A STOPPED that names no token is refused with SEQUENCE. -/
theorem State.stopped_refused (takes : s.takesFrame .m = true) (count : s.stoppedCount form n = none) :
    ∃ t, exec (.stopped form n) s = .next t ∧ s.onlyPort t .m ∧ s.answers t .m .sequence [] := by
  refine ⟨_, rfl, State.answered_onFrame takes ?_⟩
  have counted : ((s.loseReply .m).closeFrame .m).stoppedCount form n = none := count
  simp only [State.stoppedReport, counted]
  rfl

theorem State.stoppedCount_unnamed (none : ∀ k ∈ s.queue.issued, k.seq ≠ n) :
    s.stoppedCount 0 n = if s.queue.lastDone = some n then some 0 else .none := by
  simp only [State.stoppedCount, if_true, issuedCount_none none]

theorem State.stoppedCount_none (s : State) (n : Nat) :
    s.stoppedCount 1 n = if s.queue.lastDone = none then some 0 else none := rfl

theorem State.stoppedCount_other (s : State) (n : Nat) (high : 1 < form) : s.stoppedCount form n = none := by
  rw [State.stoppedCount, if_neg (by omega), if_neg (by omega)]

/-- Settles O35: the three refusals, then what a STOPPED that is taken leaves, by the run state it finds. -/
theorem stoppedRollsBackToExecutedPoint : Obligations.StoppedRollsBackToExecutedPoint := by
  intro s n takes
  refine ⟨fun none other => ?_, fun dated => ?_, fun form high => ?_, fun form done rest issued named => ?_⟩
  · exact State.stopped_refused takes ((State.stoppedCount_unnamed none).trans (if_neg other))
  · exact State.stopped_refused takes ((s.stoppedCount_none n).trans (if_neg dated))
  · exact State.stopped_refused takes (s.stoppedCount_other n high)
  have count : s.stoppedCount form n = some done.length := by
    obtain ⟨rfl, before, last, rfl, name, first⟩ | ⟨rfl, rfl, none, last⟩ | ⟨rfl, rfl, last⟩ := named
    · exact State.stoppedCount_named issued name first
    · exact (State.stoppedCount_unnamed none).trans (if_pos last)
    · exact (s.stoppedCount_none n).trans (if_pos last)
  obtain ⟨ran, answers⟩ := State.stopped_onFrame takes issued count
  have framed : (s.framedOn .m).queue.issued = done ++ rest := issued
  refine ⟨_, congrArg Host.Outcome.next ran, ?_⟩
  generalize ht : (s.framedOn .m).takeStopped done.length = t at answers
  obtain ⟨bare, empty, next, last, frame, point, cursor, design, at_, split, halt, buffer, approach⟩ :=
    State.takeStopped_executed framed ht.symm
  rw [beBytes_one] at answers
  refine ⟨bare, empty, next, last, frame, point, cursor, design, at_, split, halt, buffer, approach, answers,
    fun plain => ?_⟩
  obtain ⟨ramp, flag⟩ := State.takeStopped_flags framed ht.symm plain
  refine ⟨ramp, flag, fun main live => ?_, fun stopping memory => ?_, fun stopping repaired => ?_⟩
  · obtain ⟨stopping, running⟩ := State.takeStopped_main framed ht.symm plain main
    obtain now | ⟨now, memory, repaired⟩ := live
    · obtain ⟨either, whole, broken⟩ := running now
      have state : t.run.state = .paused := either.elim (·.state) (·.state)
      have posted := either.elim State.PausedFor.posted State.PausedFor.posted
      refine ⟨state, posted, fun stops => ?_, fun _ => ⟨fun none => (whole none).reason,
        fun breaks all => (broken breaks all).reason⟩⟩
      rw [now] at stops
      cases stops
    · have paused := stopping now memory repaired
      refine ⟨paused.state, paused.posted, fun _ => paused.reason, fun runs => ?_⟩
      rw [now] at runs
      cases runs
  · have left := State.takeStopped_memory framed ht.symm plain ⟨stopping, memory⟩
    exact left
  · have left := State.takeStopped_repairDone framed ht.symm plain ⟨stopping, repaired⟩
    exact left

end Sys2Proof.Machine
end

section
/-! PROOF SUPPORT. The law of the FAULT entries field by field, entries that are dropped or changed without a new FAULT entry,
and the bounds of the queues along an operation (R78, R145, R146, R155). -/

namespace Sys2Proof.Machine

open Sys2Proof

variable {s t u : State}

/-! ### The heads of FAULT entries -/

/-- The heads of the FAULT entries of a list, one for each entry. -/
def faultHeads (l : List RepairEntry) : List Nat := (l.filter (·.isFault)).map (·.head)

/-- What counts of an entry: its head, and whether it is a FAULT entry. -/
def RepairEntry.tag (e : RepairEntry) : Nat × Bool := (e.head, e.isFault)

/-- No entry of `m` is new beside those of `l`, counted by head and kind. -/
def Thins (l m : List RepairEntry) : Prop := (m.map RepairEntry.tag).Subperm (l.map RepairEntry.tag)

theorem faultHeads_tags (l : List RepairEntry) : faultHeads l = ((l.map RepairEntry.tag).filter (·.2)).map (·.1) := by
  rw [List.filter_map, List.map_map]
  rfl

theorem RepairEntry.isSkip_eq (e : RepairEntry) : e.isSkip = !e.isFault := by
  unfold RepairEntry.isSkip RepairEntry.isFault
  cases e.kind <;> rfl

theorem skips_tags (l : List RepairEntry) :
    (l.filter (·.isSkip)).length = ((l.map RepairEntry.tag).filter fun x => !x.2).length := by
  rw [List.filter_map, List.length_map]
  exact congrArg List.length (List.filter_congr fun e _ => e.isSkip_eq)

theorem Thins.faultHeads {l m : List RepairEntry} (h : Thins l m) : (faultHeads m).Subperm (faultHeads l) := by
  obtain ⟨k, perm, sub⟩ := h
  rw [faultHeads_tags, faultHeads_tags]
  exact ⟨_, (perm.filter _).map _, (sub.filter _).map _⟩

theorem Thins.skips {l m : List RepairEntry} (h : Thins l m) :
    (m.filter (·.isSkip)).length ≤ (l.filter (·.isSkip)).length := by
  rw [skips_tags, skips_tags]
  exact (h.filter _).length_le

theorem Thins.trans {l m k : List RepairEntry} (h : Thins l m) (g : Thins m k) : Thins l k := List.Subperm.trans g h

theorem Thins.refl (l : List RepairEntry) : Thins l l := List.Subperm.refl _

/-- Entries dropped. -/
theorem Thins.filter (l : List RepairEntry) (p : RepairEntry → Bool) : Thins l (l.filter p) :=
  (List.filter_sublist.map _).subperm

/-- Entries changed, each with its head and its kind but for the cause of a fault. -/
theorem Thins.map (l : List RepairEntry) {f : RepairEntry → RepairEntry} (tag : ∀ e, (f e).tag = e.tag) :
    Thins l (l.map f) := by
  rw [Thins, List.map_map, show RepairEntry.tag ∘ f = RepairEntry.tag from funext tag]

theorem Thins.nil (l : List RepairEntry) : Thins l [] := List.nil_subperm

theorem Thins.changeFirst (p : RepairEntry → Bool) {f : RepairEntry → RepairEntry} (tag : ∀ e, (f e).tag = e.tag)
    (l : List RepairEntry) : Thins l (changeFirst p f l) := by
  suffices same : (Machine.changeFirst p f l).map RepairEntry.tag = l.map RepairEntry.tag by rw [Thins, same]
  induction l with
  | nil => rfl
  | cons e rest ih =>
    unfold Machine.changeFirst
    split
    · rw [List.map_cons, List.map_cons, tag]
    · rw [List.map_cons, List.map_cons, ih]

theorem Thins.sortEntries (l : List RepairEntry) : Thins l (sortEntries l) := ((sortEntries_perm l).map _).subperm

theorem mem_faultHeads {l : List RepairEntry} {h : Nat} : h ∈ faultHeads l ↔ ∃ e ∈ l, e.isFault = true ∧ e.head = h := by
  simp only [faultHeads, List.mem_map, List.mem_filter, and_assoc]

theorem count_faultHeads (l : List RepairEntry) (h : Nat) :
    (l.filter fun e => decide (e.head = h) && e.isFault).length = (faultHeads l).count h := by
  rw [faultHeads, List.count, List.countP_map, List.countP_filter, List.countP_eq_length_filter]
  rfl

/-! ### The law of the FAULT entries -/

/-- The states of a head with a FAULT entry in a MAIN pass (R138, R143). -/
def HeadState.faulted (v : HeadState) : Prop := v = .heldFault ∨ v = .lost

/-- The ring speaks to a head 1 to 24, or to all of them. -/
def RingRequest.addressed (r : RingRequest) : Prop := r.head ∈ headNumbers ∨ r.head = broadcastId

/-- What holds while an enumeration lasts (R128). -/
structure State.Enumerates (s : State) : Prop where
  ring : s.ring.state = .enumerating
  idle : s.run.state = .idle
  bare : faultHeads s.repairs = []
  absent : ∀ h ∈ headNumbers, s.present h = false
  flight : ∀ f, s.ring.flight = some f → f.request.function = .assign ∨ f.discarded = true

/-- `State.faultsSingle` field by field. -/
structure State.FaultLaw (s : State) : Prop where
  single : (faultHeads s.repairs).Nodup
  heads : ∀ h ∈ faultHeads s.repairs, h ∈ headNumbers
  faulted : s.run.pass = .main → ∀ h ∈ faultHeads s.repairs, (s.head h).state.faulted
  main : s.run.state.offline → s.run.pass = .main
  walk : ∀ w, s.walk = some w → w.requester = .repair → s.run.pass = .repair
  requests : ∀ r ∈ s.ring.requests, r.addressed
  flight : ∀ f, s.ring.flight = some f → f.request.function ≠ .assign → f.request.addressed
  enumeration : s.ring.enumeration.isSome = true → s.Enumerates

theorem State.faultsSingle_iff : s.faultsSingle ↔ s.FaultLaw := by
  have bare : (∀ e ∈ s.repairs, e.isFault = false) ↔ faultHeads s.repairs = [] := by
    simp [faultHeads]
  have single : (∀ h, (s.repairs.filter fun e => decide (e.head = h) && e.isFault).length ≤ 1) ↔
      (faultHeads s.repairs).Nodup := by
    simp only [count_faultHeads, List.nodup_iff_count_le_one]
  have each : ∀ p : Nat → Prop, (∀ e ∈ s.repairs, e.isFault = true → p e.head) ↔ ∀ h ∈ faultHeads s.repairs, p h := by
    intro p
    constructor
    · intro all h mem
      obtain ⟨e, listed, fault, rfl⟩ := mem_faultHeads.mp mem
      exact all e listed fault
    · exact fun all e mem fault => all _ (mem_faultHeads.mpr ⟨e, mem, fault, rfl⟩)
  rw [State.faultsSingle, bare, single, each (· ∈ headNumbers),
    each fun h => (s.head h).state = .heldFault ∨ (s.head h).state = .lost]
  constructor
  · rintro ⟨one, heads, faulted, main, walk, requests, flight, enumeration⟩
    refine ⟨one, heads, faulted, main, walk, requests, flight, fun lasts => ?_⟩
    obtain ⟨ring, idle, none, absent, assigns⟩ := enumeration lasts
    exact ⟨ring, idle, none, absent, assigns⟩
  · rintro ⟨one, heads, faulted, main, walk, requests, flight, enumeration⟩
    refine ⟨one, heads, faulted, main, walk, requests, flight, fun lasts => ?_⟩
    obtain ⟨ring, idle, none, absent, assigns⟩ := enumeration lasts
    exact ⟨ring, idle, none, absent, assigns⟩

/-- The list fits its 48 places: 24 SKIP entries, and one FAULT entry for each of 24 heads. -/
theorem State.FaultLaw.repairs_length (law : s.FaultLaw) (ordered : s.repairsOrdered) : s.repairs.length ≤ 48 := by
  have faults : (faultHeads s.repairs).length ≤ 24 := (List.subperm_of_subset law.single law.heads).length_le
  have skips : (s.repairs.filter fun e => !e.isFault).length ≤ 24 := by
    have same : (s.repairs.filter fun e => !e.isFault) = s.repairs.filter (·.isSkip) :=
      List.filter_congr fun e _ => e.isSkip_eq.symm
    rw [same]
    exact ordered.2
  rw [faultHeads, List.length_map] at faults
  rw [List.length_eq_length_filter_add (·.isFault)]
  omega

/-- The fields that the law speaks of. -/
def State.bench (s : State) : List RepairEntry × Table HeadRecord × HeadRing × PassKind × RunState × Option WalkRecord :=
  (s.repairs, s.heads, s.ring, s.run.pass, s.run.state, s.walk)

theorem State.bench_iff : t.bench = s.bench ↔ t.repairs = s.repairs ∧ t.heads = s.heads ∧ t.ring = s.ring ∧
    t.run.pass = s.run.pass ∧ t.run.state = s.run.state ∧ t.walk = s.walk := by
  simp [State.bench]

theorem State.head_congr (heads : t.heads = s.heads) (h : Nat) : t.head h = s.head h := by
  rw [State.head, State.head, heads]

theorem State.present_congr {h : Nat} (state : (t.head h).state = (s.head h).state) : t.present h = s.present h := by
  rw [State.present, State.present, state]

namespace State.FaultLaw

variable (law : s.FaultLaw)
include law

theorem of_bench (same : t.bench = s.bench) : t.FaultLaw := by
  obtain ⟨repairs, heads, ring, pass, state, walk⟩ := State.bench_iff.mp same
  have head := State.head_congr heads
  refine ⟨repairs ▸ law.single, repairs ▸ law.heads, fun main h mem => ?_, fun off => ?_, fun w some => ?_,
    ring ▸ law.requests, ring ▸ law.flight, fun lasts => ?_⟩
  · rw [head]
    exact law.faulted (pass ▸ main) h (repairs ▸ mem)
  · rw [pass]
    exact law.main (state ▸ off)
  · rw [pass]
    exact law.walk w (walk ▸ some)
  · have now := law.enumeration (ring ▸ lasts)
    exact ⟨ring ▸ now.ring, state ▸ now.idle, repairs ▸ now.bare,
      fun h mem => (State.present_congr (congrArg _ (head h))).trans (now.absent h mem), ring ▸ now.flight⟩

/-- Out of IDLE no enumeration lasts. -/
theorem noEnumeration (live : s.run.state ≠ .idle) : s.ring.enumeration.isSome = false := by
  rw [Bool.eq_false_iff]
  exact fun lasts => live (law.enumeration lasts).idle

/-- A REPAIR pass is no time of an enumeration. -/
theorem noEnumeration_of_repair (repair : s.run.pass = .repair) : s.ring.enumeration.isSome = false := by
  refine law.noEnumeration fun idle => ?_
  rw [law.main (.inl idle)] at repair
  cases repair

/-- Nor is there one while a head is present. -/
theorem noEnumeration_of_present {h : Nat} (mem : h ∈ headNumbers) (present : s.present h = true) :
    s.ring.enumeration.isSome = false := by
  rw [Bool.eq_false_iff]
  intro lasts
  rw [(law.enumeration lasts).absent h mem] at present
  cases present

/-- Entries without a new FAULT entry among them. -/
theorem withRepairs {l : List RepairEntry} (thin : (faultHeads l).Subperm (faultHeads s.repairs)) :
    (s.withRepairs l).FaultLaw where
  single := by
    obtain ⟨m, perm, sub⟩ := thin
    exact perm.nodup_iff.mp (law.single.sublist sub)
  heads h mem := law.heads h (thin.subset mem)
  faulted main h mem := law.faulted main h (thin.subset mem)
  main := law.main
  walk := law.walk
  requests := law.requests
  flight := law.flight
  enumeration lasts :=
    have now := law.enumeration lasts
    ⟨now.ring, now.idle, List.subperm_nil.mp (now.bare ▸ thin), now.absent, now.flight⟩

/-- A run state other than IDLE and ARMING, from one that is not IDLE; or the way from ARMING back to IDLE. -/
theorem withRunState {v : RunState} (idle : s.run.state = .idle → v = .idle) (off : v.offline → s.run.state.offline) :
    (s.withRun { s.run with state := v }).FaultLaw :=
  { law with
    main := fun h => law.main (off h)
    enumeration := fun lasts =>
      have now := law.enumeration lasts
      ⟨now.ring, idle now.idle, now.bare, now.absent, now.flight⟩ }

/-- A walk of REPAIR stands in a REPAIR pass. -/
theorem withWalk {w : Option WalkRecord} (repair : ∀ v, w = some v → v.requester = .repair → s.run.pass = .repair) :
    (s.withWalk w).FaultLaw :=
  { law with
    walk := repair
    enumeration := fun lasts =>
      have now := law.enumeration lasts
      ⟨now.ring, now.idle, now.bare, now.absent, now.flight⟩ }

/-- Requests and a transaction in flight that the ring may hold, with the enumeration as it stands. -/
theorem withRing {r : HeadRing} (state : r.state = s.ring.state)
    (same : r.enumeration.isSome = s.ring.enumeration.isSome)
    (requests : ∀ q ∈ r.requests, q.addressed)
    (flight : ∀ f, r.flight = some f → f.request.function ≠ .assign → f.request.addressed)
    (assigns : s.ring.enumeration.isSome = true →
      ∀ f, r.flight = some f → f.request.function = .assign ∨ f.discarded = true) : (s.withRing r).FaultLaw :=
  { law with
    requests := requests
    flight := flight
    enumeration := fun lasts => by
      have before : s.ring.enumeration.isSome = true := same.symm.trans lasts
      have now := law.enumeration before
      exact ⟨state.trans now.ring, now.idle, now.bare, now.absent, assigns before⟩ }

/-- One head record written: no FAULT entry of a MAIN pass loses its head, and no head is present in an enumeration. -/
theorem putHead {h : Nat} {r : HeadRecord}
    (faulted : s.run.pass = .main → h ∈ faultHeads s.repairs → r.state.faulted)
    (gone : s.ring.enumeration.isSome = true → h ∈ headNumbers → (s.putHead h r).present h = false) :
    (s.putHead h r).FaultLaw :=
  { law with
    faulted := fun main g mem => by
      rw [State.head_putHead]
      split
      · next same => exact faulted main (same ▸ mem)
      · exact law.faulted main g mem
    enumeration := fun lasts => by
      have now := law.enumeration lasts
      refine ⟨now.ring, now.idle, now.bare, fun g mem => ?_, now.flight⟩
      by_cases same : g = h
      · subst same
        exact gone lasts mem
      · exact (State.present_congr (by rw [State.head_putHead, if_neg same])).trans (now.absent g mem) }

end State.FaultLaw

end Sys2Proof.Machine
end

section
/-! PROOF SUPPORT. What keeps the bounds of the queues: the relation, and the operations that touch neither head nor entry
(chapters 1 to 5, 11 and 12). -/

namespace Sys2Proof.Machine

open Sys2Proof

/-- The queues stay within their places and the entries in their order; and where `C` holds, which what comes before gives,
the law of the FAULT entries stands. -/
structure State.KeepsBounds (C : Prop) (s t : State) : Prop where
  events : s.eventsFit → t.eventsFit
  queue : s.queueFits → t.queueFits
  ordered : s.repairsOrdered → t.repairsOrdered
  law : C → s.FaultLaw → t.FaultLaw

namespace State.KeepsBounds

variable {C : Prop} {s t u : State}

/-! ### The relation -/

theorem trans (h : s.KeepsBounds C t) (g : t.KeepsBounds C u) : s.KeepsBounds C u where
  events := g.events ∘ h.events
  queue := g.queue ∘ h.queue
  ordered := g.ordered ∘ h.ordered
  law c := g.law c ∘ h.law c

/-- The last operation named first. -/
theorem after (g : t.KeepsBounds C u) (h : s.KeepsBounds C t) : s.KeepsBounds C u := h.trans g

theorem same (bench : t.bench = s.bench) (queue : t.queue = s.queue) (events : t.events = s.events) :
    s.KeepsBounds C t := by
  obtain ⟨repairs, -⟩ := State.bench_iff.mp bench
  refine ⟨fun fits => ?_, fun fits => ?_, fun fits => ?_, fun _ law => law.of_bench bench⟩
  · rw [State.eventsFit, events]
    exact fits
  · rw [State.queueFits, queue]
    exact fits
  · rw [State.repairsOrdered, repairs]
    exact fits

theorem refl (s : State) : s.KeepsBounds C s := .same rfl rfl rfl

theorem ite {p : Prop} [Decidable p] (h : s.KeepsBounds C t) (g : s.KeepsBounds C u) :
    s.KeepsBounds C (if p then t else u) := by
  split
  · exact h
  · exact g

theorem foldl {α : Type} {f : State → α → State} (l : List α) (each : ∀ (t : State), ∀ x ∈ l, t.KeepsBounds C (f t x))
    (s : State) : s.KeepsBounds C (l.foldl f s) := by
  induction l generalizing s with
  | nil => exact .refl s
  | cons x rest ih =>
    exact (each s x List.mem_cons_self).trans (ih (fun t y mem => each t y (List.mem_cons_of_mem _ mem)) _)

/-- The law it starts from may be called on throughout. -/
theorem of_law (h : s.KeepsBounds (C ∧ s.FaultLaw) t) : s.KeepsBounds C t :=
  ⟨h.events, h.queue, h.ordered, fun c law => h.law ⟨c, law⟩ law⟩

/-- A Move Queue that fits. -/
theorem ofQueue (bench : t.bench = s.bench) (events : t.events = s.events) (queue : s.queueFits → t.queueFits) :
    s.KeepsBounds C t :=
  have kept : s.KeepsBounds C (t.withQueue s.queue) := .same bench rfl events
  ⟨kept.events, queue, kept.ordered, fun _ law => law.of_bench bench⟩

/-- Tokens leave the queue. -/
theorem tokensLeave (bench : t.bench = s.bench) (events : t.events = s.events)
    (issued : t.queue.issued.length ≤ s.queue.issued.length) (prepared : t.queue.prepared.length ≤ s.queue.prepared.length) :
    s.KeepsBounds C t := .ofQueue bench events fun ⟨all, out⟩ => ⟨by omega, by omega⟩

variable (s)

/-! ### Ports, events, the arbiter, the access fault record -/

theorem postTarget (k : EventKind) (head : Nat) (param : BitVec 32) (target : Option Point) :
    s.KeepsBounds C (s.postTarget k head param target) := by
  cases log : (s.classOf k.code).log with
  | false => rw [State.postTarget_of_not_log s k head param target log]; exact .refl s
  | true =>
    rw [State.postTarget_of_log s k head param target log]
    exact ⟨fun fits => appendEvent_length fits _, id, id, fun _ law => law.of_bench rfl⟩

theorem post (k : EventKind) (head : Nat) (param : BitVec 32) : s.KeepsBounds C (s.post k head param) :=
  .postTarget s k head param none

theorem postStopped : s.KeepsBounds C s.postStopped := .post s _ _ _

theorem putPort (port : Port) (v : PortState) : s.KeepsBounds C (s.putPort port v) := by
  cases port <;> exact .same rfl rfl rfl

theorem reply (port : Port) (code : ReplyCode) (payload : List Byte) : s.KeepsBounds C (s.reply port code payload) :=
  .putPort s _ _

theorem refuse (port : Port) (code : ReplyCode) : s.KeepsBounds C (s.refuse port code) := .reply s _ _ _

theorem loseReply (port : Port) : s.KeepsBounds C (s.loseReply port) := by
  obtain ⟨a, e⟩ := s.loseReply_eq port
  rw [e]
  exact .same rfl rfl rfl

theorem framedOn (port : Port) : s.KeepsBounds C ((s.loseReply port).closeFrame port) :=
  (loseReply s port).trans (.putPort _ _ _)

theorem askRead (r : Requester) (x : StoreRead) : s.KeepsBounds C (s.askRead r x) := by
  obtain ⟨a, e⟩ := s.askRead_eq r x
  rw [e]
  exact .same rfl rfl rfl

theorem dropRead (r : Requester) : s.KeepsBounds C (s.dropRead r) := by
  obtain ⟨a, e⟩ := s.dropRead_eq r
  rw [e]
  exact .same rfl rfl rfl

theorem endAccess (r : Requester) : s.KeepsBounds C (s.endAccess r) := .same rfl rfl rfl

theorem endPause (r : Requester) : s.KeepsBounds C (s.endPause r) := by
  rw [State.endPause_eq]
  exact .same rfl rfl rfl

theorem chipSelect (port : Port) (bytes : Nat) (early : Bool) : s.KeepsBounds C (s.chipSelect port bytes early) := by
  unfold State.chipSelect
  exact .ite (.refl s) (.ite ((loseReply s port).trans (.putPort _ _ _)) (.putPort s _ _))

theorem recordFault (source : FaultSource) (command : Option FaultCommand) (slot index : Nat) (kinds : FaultKinds) :
    s.KeepsBounds C (s.recordFault source command slot index kinds) := by
  obtain ⟨f, e, -⟩ := s.recordFault_eq source command slot index kinds
  rw [e]
  exact .same rfl rfl rfl

theorem damageSlot (k : Nat) : s.KeepsBounds C (s.damageSlot k) := by
  obtain ⟨q, e⟩ := s.damageSlot_eq k
  rw [e]
  exact .same rfl rfl rfl

theorem releaseSlot : s.KeepsBounds C s.releaseSlot := by
  obtain ⟨q, e⟩ := s.releaseSlot_eq
  rw [e]
  exact .same rfl rfl rfl

theorem timeTagTick : s.KeepsBounds C s.timeTagTick := by
  unfold State.timeTagTick
  exact .ite (.after (.post _ _ _ _) (.same rfl rfl rfl)) (.same rfl rfl rfl)

/-! ### The run state (R66) -/

variable {s} in
/-- The run state written: IDLE is left by ARM alone, and IDLE and ARMING come from each other alone. -/
theorem setRunState {v : RunState} (idle : C → s.run.state = .idle → v = .idle)
    (off : C → v.offline → s.run.state.offline) : s.KeepsBounds C (s.setRunState v) := by
  obtain ⟨b, a, e⟩ := s.setRunState_eq v
  rw [e]
  exact ⟨id, id, id, fun c law => (law.withRunState (idle c) (off c)).of_bench rfl⟩

variable {s} in
theorem setRunState_live {v : RunState} (live : C → s.run.state ≠ .idle) (online : ¬ v.offline) :
    s.KeepsBounds C (s.setRunState v) :=
  .setRunState (fun c idle => absurd idle (live c)) fun _ off => absurd off online

theorem setStopReason (r : StopReason) : s.KeepsBounds C (s.setStopReason r) := .same rfl rfl rfl

theorem requestStop (reason : StopReason) : s.KeepsBounds C (s.requestStop reason) := by
  unfold State.requestStop
  split
  · next running =>
    have stopping : s.KeepsBounds C (s.setRunState .stopping) :=
      .setRunState_live (fun _ => by rw [running]; decide) (by simp [RunState.offline])
    exact stopping.trans (.setStopReason _ _)
  · exact .ite (.setStopReason s _) (.refl s)
  · exact .ite (.same rfl rfl rfl) (.refl s)
  · exact .refl s

theorem stopForLoss (wasActive : Bool) : s.KeepsBounds C (s.stopForLoss wasActive) :=
  .ite (.requestStop s _) (.refl s)

theorem applyPolicy : s.KeepsBounds C s.applyPolicy := .ite (.requestStop s _) (.refl s)

/-! ### The store (chapter 1) -/

theorem readChunk (n : Nat) : s.KeepsBounds C (s.readChunk n).1 := by
  simp only [State.readChunk]
  split
  · split
    · exact .refl s
    · exact .after (.post _ _ _ _) (.same rfl rfl rfl)
    · exact .refl s
  · exact .refl s

theorem readSpans (spans : List Span) : s.KeepsBounds C (s.readSpans spans).1 := by
  induction spans generalizing s with
  | nil => exact .refl s
  | cons sp rest ih =>
    have read : s.KeepsBounds C (s.readChunk sp.chunk).1 := .readChunk s sp.chunk
    unfold State.readSpans
    split
    · next e => rw [e] at read; exact read
    · next t rs corrected e =>
      rw [e] at read
      have more := read.trans (ih t)
      split <;> (next f => rw [f] at more; exact more)

theorem writeRequest (index : Nat) (rs : List StitchRecord) (spans : List Span) :
    s.KeepsBounds C (s.writeRequest index rs spans).1 := by
  have read : s.KeepsBounds C (s.readSpans (s.firstPhaseSpans spans)).1 := .readSpans s _
  unfold State.writeRequest
  split
  · next e => rw [e] at read; exact read
  · next t _ _ e =>
    rw [e] at read
    obtain ⟨st, written⟩ := t.writeSpans_eq index rs spans
    refine read.trans ?_
    rw [written]
    exact .same rfl rfl rfl

theorem carryOut (a : PortAccess) : s.KeepsBounds C (s.carryOut a).1 := by
  unfold State.carryOut
  split
  · next rs _ =>
    split
    · exact .refl s
    · have written : s.KeepsBounds C (s.writeRequest a.index rs a.spans).1 := .writeRequest s _ _ _
      split
      · next e => rw [e] at written; exact written
      · next e => rw [e] at written; exact written.trans (.recordFault _ _ _ _ _ _)
  · have read : s.KeepsBounds C (s.readSpans a.spans).1 := .readSpans s _
    split
    · next e => rw [e] at read; exact read
    · next e => rw [e] at read; exact (read.trans (.recordFault _ _ _ _ _ _)).trans (.damageSlot _ _)

theorem endPortAccess : s.KeepsBounds C s.endPortAccess := by
  unfold State.endPortAccess
  split <;> exact .same rfl rfl rfl

theorem askPortAccess (slot index count : Nat) (write : Option (List StitchRecord)) :
    s.KeepsBounds C (s.askPortAccess slot index count write) := by
  have settled : s.KeepsBounds C s.settlePortAccess := by
    unfold State.settlePortAccess
    split
    · next a _ =>
      have done : s.KeepsBounds C (s.carryOut a).1 := .carryOut s a
      split
      next e => rw [e] at done; exact done.trans (.endPortAccess _)
    · exact .refl s
  exact settled.trans (.same rfl rfl rfl)

theorem writeRecords (slot index : Nat) (records : List WireRecord) :
    s.KeepsBounds C (s.writeRecords slot index records) := by
  unfold State.writeRecords
  refine .ite (.refuse s _ _) (.ite (.refuse s _ _) ?_)
  dsimp only
  split
  · exact (recordFault s _ _ _ _ _).trans (.refuse _ _ _)
  · split
    · exact .refuse s _ _
    · exact .askPortAccess s _ _ _ _

theorem readRecords (slot index count : Nat) : s.KeepsBounds C (s.readRecords slot index count) := by
  unfold State.readRecords
  refine .ite (.refuse s _ _) ?_
  dsimp only
  split
  · exact (recordFault s _ _ _ _ _).trans (.refuse _ _ _)
  · exact .askPortAccess s _ _ _ _

theorem portAccessDone : s.KeepsBounds C s.portAccessDone := by
  unfold State.portAccessDone
  split
  · next a _ _ =>
    have done : s.KeepsBounds C (s.carryOut a).1 := .carryOut s a
    split
    next e =>
      rw [e] at done
      have ended := done.trans (.endPortAccess _)
      exact .ite ended (ended.trans (.reply _ _ _ _))
  · exact .refl s

theorem storeBitChange (n : Nat) (bits : List Nat) : s.KeepsBounds C (s.storeBitChange n bits) :=
  .ite (.same rfl rfl rfl) (.refl s)

/-! ### Slots and the close scan (chapter 2) -/

theorem openDesign (slot len : Nat) : s.KeepsBounds C (s.openDesign slot len) := by
  obtain ⟨st, e⟩ := s.allocate_eq len
  unfold State.openDesign
  rw [e]
  refine .ite (.refuse s _ _) (.ite (.refuse s _ _) (.ite (.refuse s _ _) (.ite (.refuse s _ _) ?_)))
  exact .after (.reply _ _ _ _) (.same rfl rfl rfl)

theorem setColours (slot first : Nat) (entries : List ColourEntry) : s.KeepsBounds C (s.setColours slot first entries) := by
  have written : s.KeepsBounds C ((s.putSlot slot ((s.slot slot).putColours first entries)).reply .p .ok []) :=
    .after (.reply _ _ _ _) (.same rfl rfl rfl)
  refine .ite (.refuse s _ _) (.ite (.refuse s _ _) (.ite (.refuse s _ _) (.ite (.refuse s _ _) (.ite (.refuse s _ _)
    (.ite (.refuse s _ _) (.ite ?_ written))))))
  split
  · exact .refuse s _ _
  · exact written

theorem closeDesign (slot : Nat) : s.KeepsBounds C (s.closeDesign slot) := by
  refine .ite (.refuse s _ _) (.ite (.refuse s _ _) (.ite (.refuse s _ _) (.ite (.refuse s _ _) ?_)))
  extract_lets c src t
  have begun : s.KeepsBounds C t := .same rfl rfl rfl
  exact (begun.trans (.askRead _ _ _)).trans (.reply _ _ _ _)

theorem deleteSlot (slot : Nat) : s.KeepsBounds C (s.deleteSlot slot) :=
  .ite (.refuse s _ _) (.ite (.refuse s _ _) (.ite (.refuse s _ _) (.ite (.refuse s _ _) (.ite (.refuse s _ _)
    (.after (.reply _ _ _ _) (.same rfl rfl rfl))))))

theorem keepSlot (slot : Nat) (on : Bool) : s.KeepsBounds C (s.keepSlot slot on) :=
  .ite (.refuse s _ _) (.ite (.refuse s _ _) (.after (.reply _ _ _ _) (.same rfl rfl rfl)))

theorem failScan (c : CloseScan) (cause : CloseCause) (index : Nat) : s.KeepsBounds C (s.failScan c cause index) :=
  .after (.post _ _ _ _) (.same rfl rfl rfl)

theorem passScan (c : CloseScan) : s.KeepsBounds C (s.passScan c) :=
  .after (.post _ _ _ _) (.same rfl rfl rfl)

theorem closeScanReadDone : s.KeepsBounds C s.closeScanReadDone := by
  unfold State.closeScanReadDone
  split
  · next read _ _ _ =>
    have done : s.KeepsBounds C (s.readChunk read.chunk).1 := .readChunk s _
    split
    next t result e =>
      rw [e] at done
      have ended := done.trans (.endAccess t .closeScan)
      dsimp only
      split
      · refine ended.trans ?_
        unfold State.scanChunk
        refine .ite (.failScan _ _ _ _) ?_
        split
        · exact (recordFault _ _ _ _ _ _).trans (.failScan _ _ _ _)
        · split
          · exact .failScan _ _ _ _
          · exact .ite (.passScan _ _) (.same rfl rfl rfl)
      · exact ended
  · exact .refl s

/-! ### The Sequencer and the Move Queue (chapters 3 and 5) -/

/-- The prepare read asked for, where one is. -/
theorem askPrepareRead : s.KeepsBounds C s.askPrepareRead := by
  unfold State.askPrepareRead
  split
  · exact .askRead s _ _
  · exact .refl s

variable {s} in
/-- A token placed where the queue has room for it. -/
theorem placed (room : s.queue.issued.length + s.queue.prepared.length < 64) {k : Token} (bench : t.bench = s.bench)
    (events : t.events = s.events) (queue : t.queue = (s.placeToken k).queue) : s.KeepsBounds C t := by
  refine .ofQueue bench events fun ⟨_, out⟩ => ?_
  rw [State.queueFits, queue]
  refine ⟨?_, out⟩
  simp only [State.placeToken, State.withQueue_queue, List.length_append, List.length_singleton]
  omega

section turn

variable {s}
variable (room : s.queue.issued.length + s.queue.prepared.length < 64)
include room

theorem placeHalt (reason : HaltReason) : s.KeepsBounds C (s.placeHalt reason) := .placed room rfl rfl rfl

theorem placeHaltTrim (reason : HaltReason) : s.KeepsBounds C (s.placeHaltTrim reason) := .placed room rfl rfl rfl

theorem placeApproachPiece (sp : Split) : s.KeepsBounds C (s.placeApproachPiece sp) :=
  .ite (.placed room rfl rfl rfl) (.placed room rfl rfl rfl)

theorem placeRecordPiece (sp : Split) (r : StitchRecord) : s.KeepsBounds C (s.placeRecordPiece sp r) :=
  .ite (.placed room rfl rfl rfl) (.placed room rfl rfl rfl)

theorem turnAtRecord : s.KeepsBounds C s.turnAtRecord := by
  refine .ite (.placeHalt room _) ?_
  split
  · next r _ =>
    unfold State.placeRecord
    split
    · exact .placeRecordPiece room _ r
    · exact .placeRecordPiece room _ r
    · exact .placed room rfl rfl rfl
    · exact .ite (.placeHaltTrim room _) (.placeHalt room _)
    · exact .placeHalt room _
    · exact .placeHaltTrim room _
  · exact .askPrepareRead s

theorem turnAtSplit (sp : Split) : s.KeepsBounds C (s.turnAtSplit sp) := by
  unfold State.turnAtSplit
  split
  · exact .placeApproachPiece room sp
  · split
    · exact .placeRecordPiece room sp _
    · exact .askPrepareRead s

end turn

/-- A turn of preparation places at most one token, and none in a full queue (R80). -/
theorem prepareOne : s.KeepsBounds C s.prepareOne := by
  unfold State.prepareOne
  split
  · next may =>
    obtain ⟨-, room, -⟩ := s.mayPrepare_iff.mp may
    split
    · exact .turnAtSplit room _
    · exact .placeHalt room _
    · have cleared : s.KeepsBounds C (s.withSeq { s.seq with approach := false }) := .same rfl rfl rfl
      exact .ite (cleared.trans (.turnAtRecord room)) (.placeApproachPiece room _)
    · exact .placeHalt room _
    · exact .turnAtRecord room
  · exact .refl s

theorem prepareReadDone : s.KeepsBounds C s.prepareReadDone := by
  unfold State.prepareReadDone
  split
  · next read _ _ _ =>
    have done : s.KeepsBounds C (s.readChunk read.chunk).1 := .readChunk s _
    split
    next t _ e =>
      rw [e] at done
      have ended := done.trans (.endAccess t .sequencer)
      dsimp only
      split
      · refine ended.trans ?_
        split
        · exact .same rfl rfl rfl
        · have marked := fun u : State =>
            show u.KeepsBounds C (u.withRun { u.run with faultChunk := some read.chunk }) from .same rfl rfl rfl
          exact ((marked _).trans (.recordFault _ _ _ _ _ _)).trans (.requestStop _ _)
      · exact ended
  · exact .refl s

theorem issue (n : Nat) (room : n ≤ 32 - s.queue.issued.length) : s.KeepsBounds C (s.issue n) := by
  refine .ofQueue rfl rfl fun ⟨all, out⟩ => ?_
  simp only [State.queueFits, State.issue, State.withQueue_queue, List.length_append, List.length_take, List.length_drop]
  omega

theorem openStarvation : s.KeepsBounds C s.openStarvation :=
  .ite (.after (.post _ _ _ _) (.ofQueue rfl rfl id)) (.refl s)

theorem openStarvation_issued : s.openStarvation.queue.issued = s.queue.issued := by
  unfold State.openStarvation
  split
  · obtain ⟨q, e⟩ := (s.withQueue { s.queue with starved := true }).post_eq .queueStarved 0 (indexParam s.seq.cursor)
    rw [e]
    rfl
  · rfl

/-- No more tokens are issued than 32 leave room for (R82). -/
theorem fetchMoves (max : Nat) : s.KeepsBounds C (s.fetchMoves max) := by
  have room : s.issueCount max ≤ 32 - s.queue.issued.length := by
    unfold State.issueCount
    split
    · exact (min_le_right _ _).trans (min_le_right _ _)
    · exact Nat.zero_le _
  refine .ite (.refuse s _ _) (((openStarvation s).trans (.issue _ _ ?_)).trans (.reply _ _ _ _))
  rw [openStarvation_issued]
  exact room

theorem rollback : s.KeepsBounds C s.rollback := by
  obtain ⟨a, f, e⟩ := s.rollback_eq
  rw [e]
  exact .tokensLeave rfl rfl (Nat.zero_le _) (Nat.zero_le _)

/-! ### Events and settings (chapters 11 and 12) -/

theorem readEvents (n : Nat) : s.KeepsBounds C (s.readEvents n) := by
  have dropped : s.KeepsBounds C (s.withEvents (s.events.drop n)) :=
    ⟨fun fits => (List.drop_sublist n s.events).length_le.trans fits, id, id, fun _ law => law.of_bench rfl⟩
  exact .ite (.refuse s _ _) (dropped.trans (.reply _ _ _ _))

theorem setClass (kind : Nat) (log attend : Bool) : s.KeepsBounds C (s.setClass kind log attend) :=
  .ite (.refuse s _ _) (.after (.reply _ _ _ _) (.same rfl rfl rfl))

theorem setTime (value unit : Nat) : s.KeepsBounds C (s.setTime value unit) :=
  .ite (.after (.reply _ _ _ _) (.same rfl rfl rfl)) (.refuse s _ _)

end State.KeepsBounds

end Sys2Proof.Machine
end

section
/-! PROOF SUPPORT. The bounds of the queues along what changes heads, their requests and the entries of the Repair List
(chapters 8 to 10). -/

namespace Sys2Proof.Machine

open Sys2Proof

variable {C : Prop} {s t u : State} {h : Nat}

/-! ### Heads that may change their state -/

/-- A state a head may take as far as FAULT entries and an enumeration go: the head of a FAULT entry of a MAIN pass is
HELD_FAULT or LOST, and no head is present in an enumeration. -/
def State.Admits (s : State) (h : Nat) (st : HeadState) : Prop :=
  (s.run.pass = .main → h ∈ faultHeads s.repairs → st.faulted) ∧
    (s.ring.enumeration.isSome = true → st = .absent ∨ st = .lost)

/-- The states of a head that has no FAULT entry in a MAIN pass and is present. -/
def HeadState.free (v : HeadState) : Prop := v ≠ .absent ∧ v ≠ .heldFault ∧ v ≠ .lost

theorem HeadState.free_active : HeadState.active.free := ⟨nofun, nofun, nofun⟩
theorem HeadState.free_heldNeedle : HeadState.heldNeedle.free := ⟨nofun, nofun, nofun⟩
theorem HeadState.free_heldOperator : HeadState.heldOperator.free := ⟨nofun, nofun, nofun⟩
theorem HeadState.free_waiting : HeadState.waiting.free := ⟨nofun, nofun, nofun⟩

theorem State.present_iff : s.present h = true ↔ (s.head h).state ≠ .absent ∧ (s.head h).state ≠ .lost := by
  simp [State.present]

theorem State.not_present_iff : s.present h = false ↔ (s.head h).state = .absent ∨ (s.head h).state = .lost := by
  simp only [State.present, Bool.and_eq_false_iff, decide_eq_false_iff_not, not_not]

theorem State.FaultLaw.not_mem_of_free (law : s.FaultLaw) (free : (s.head h).state.free) (main : s.run.pass = .main) :
    h ∉ faultHeads s.repairs := fun mem => by
  obtain ⟨-, held, lost⟩ := free
  exact (law.faulted main h mem).elim held lost

theorem State.FaultLaw.admits_of_free (law : s.FaultLaw) (mem : h ∈ headNumbers) (free : (s.head h).state.free)
    (st : HeadState) : s.Admits h st := by
  refine ⟨fun main fault => absurd fault (law.not_mem_of_free free main), fun lasts => ?_⟩
  rw [law.noEnumeration_of_present mem (State.present_iff.mpr ⟨free.1, free.2.2⟩)] at lasts
  cases lasts

theorem State.FaultLaw.admits_of_repair (law : s.FaultLaw) (repair : s.run.pass = .repair) (st : HeadState) :
    s.Admits h st := by
  refine ⟨fun main => ?_, fun lasts => ?_⟩
  · rw [repair] at main
    cases main
  · rw [law.noEnumeration_of_repair repair] at lasts
    cases lasts

theorem State.admits_lost (s : State) (h : Nat) : s.Admits h .lost := ⟨fun _ _ => .inr rfl, fun _ => .inr rfl⟩

/-! ### Requests (R126) -/

theorem State.FaultLaw.offer (law : s.FaultLaw) {r : RingRequest} (known : r.addressed) : (s.offer r).FaultLaw := by
  unfold State.offer
  split
  · refine law.withRing rfl rfl (fun q mem => ?_) law.flight fun lasts => (law.enumeration lasts).flight
    rcases of_mem_coalesce mem with rfl | mem
    · exact known
    · exact law.requests q mem
  · exact law

/-- Another FAULT entry, of a faulted head that has none. -/
theorem State.FaultLaw.withFault (law : s.FaultLaw) {l : List RepairEntry}
    (entries : (faultHeads l).Subperm (h :: faultHeads s.repairs)) (new : h ∉ faultHeads s.repairs)
    (mem : h ∈ headNumbers) (held : (s.head h).state = .heldFault) : (s.withRepairs l).FaultLaw :=
  have either : ∀ g ∈ faultHeads l, g = h ∨ g ∈ faultHeads s.repairs := fun g listed =>
    List.mem_cons.mp (entries.subset listed)
  { law with
    single := by
      obtain ⟨m, perm, sub⟩ := entries
      exact perm.nodup_iff.mp ((List.nodup_cons.mpr ⟨new, law.single⟩).sublist sub)
    heads := fun g listed => by
      rcases either g listed with rfl | old
      · exact mem
      · exact law.heads g old
    faulted := fun main g listed => by
      rcases either g listed with rfl | old
      · exact .inl held
      · exact law.faulted main g old
    enumeration := fun lasts => by
      have present : s.present h = true := State.present_iff.mpr (by rw [held]; exact ⟨nofun, nofun⟩)
      exact absurd ((law.noEnumeration_of_present mem present).symm.trans lasts) nofun }

/-- The fault action leaves every other head. -/
theorem State.head_faultAction_other (s : State) (cause : ThreadFault) {g : Nat} (other : g ≠ h) :
    (s.faultAction h cause).head g = s.head g := by
  obtain ⟨r, q, l, o, v, e, -⟩ := s.faultAction_eq h cause
  have heads : (s.faultAction h cause).heads = (s.putHead h r).heads := by
    rw [e]
    rfl
  exact (State.head_congr heads g).trans ((s.head_putHead h g r).trans (if_neg other))

namespace State.KeepsBounds

theorem offer {r : RingRequest} (known : C → r.addressed) : s.KeepsBounds C (s.offer r) := by
  have law : C → s.FaultLaw → (s.offer r).FaultLaw := fun c law => law.offer (known c)
  obtain ⟨q, e⟩ := s.offer_eq r
  rw [e] at law ⊢
  exact ⟨id, id, id, law⟩

theorem offerState (mem : C → h ∈ headNumbers) (st : HeadState) : s.KeepsBounds C (s.offerState h st) := by
  have two : ∀ a b : RingRequest, a.head = h → b.head = h → s.KeepsBounds C ((s.offer a).offer b) := fun a b ha hb =>
    trans (.offer fun c => .inl (ha ▸ mem c)) (.offer fun c => .inl (hb ▸ mem c))
  unfold State.offerState
  split
  · exact .refl s
  · exact .refl s
  · exact two _ _ rfl rfl

/-! ### Head records (R134) -/

theorem putHead {r : HeadRecord} (admits : C → s.FaultLaw → s.Admits h r.state) : s.KeepsBounds C (s.putHead h r) := by
  refine ⟨id, id, id, fun c law => ?_⟩
  obtain ⟨faulted, gone⟩ := admits c law
  refine law.putHead faulted fun lasts _ => State.not_present_iff.mpr ?_
  rw [State.head_putHead, if_pos rfl]
  exact gone lasts

/-- A head record written that leaves the state of the head. -/
theorem putHead_same {r : HeadRecord} (same : r.state = (s.head h).state) : s.KeepsBounds C (s.putHead h r) := by
  refine ⟨id, id, id, fun _ law => law.putHead (fun main fault => ?_) fun lasts mem => ?_⟩
  · rw [same]
    exact law.faulted main h fault
  · rw [← (law.enumeration lasts).absent h mem]
    exact State.present_congr (by rw [State.head_putHead, if_pos rfl, same])

theorem setJoin (s : State) (h : Nat) (j : Option Nat) : s.KeepsBounds C (s.setJoin h j) := .putHead_same rfl

theorem setHeadState {st : HeadState} (cause : Option HeadCause) (mem : C → h ∈ headNumbers)
    (admits : C → s.FaultLaw → s.Admits h st) : s.KeepsBounds C (s.setHeadState h st cause) := by
  unfold State.setHeadState
  refine trans (.putHead fun c law => ?_) (.offerState mem st)
  have state : (if st = .active then s.freshCounts { s.head h with state := st, cause := cause }
      else { s.head h with state := st, cause := cause }).state = st := by
    split <;> rfl
  rw [state]
  exact admits c law

/-! ### Entries dropped or changed -/

/-- The entries written, no FAULT entry new among them, and no SKIP entry above 24. -/
theorem setRepairs {l : List RepairEntry}
    (skips : (s.repairs.filter (·.isSkip)).length ≤ 24 → (l.filter (·.isSkip)).length ≤ 24)
    (faults : (faultHeads l).Subperm (faultHeads s.repairs)) : s.KeepsBounds C (s.setRepairs l) := by
  rw [State.setRepairs_eq]
  have sorted : Thins l (sortEntries l) := .sortEntries l
  exact ⟨id, id, fun ⟨_, share⟩ => ⟨sortEntries_sorted l, sorted.skips.trans (skips share)⟩,
    fun _ law => (law.withRepairs (sorted.faultHeads.trans faults)).of_bench rfl⟩

theorem thinRepairs {l : List RepairEntry} (thin : Thins s.repairs l) : s.KeepsBounds C (s.setRepairs l) :=
  .setRepairs thin.skips.trans thin.faultHeads

variable (s h)

theorem unmarkEntries : s.KeepsBounds C (s.unmarkEntries h) :=
  .thinRepairs (.map _ fun e => by split <;> rfl)

theorem markEntries (c : Nat) : s.KeepsBounds C (s.markEntries h c) :=
  .thinRepairs (.map _ fun e => by split <;> rfl)

theorem undefer : s.KeepsBounds C (s.undefer h) :=
  .thinRepairs (.map _ fun e => by split <;> rfl)

theorem dropFault : s.KeepsBounds C (s.dropFault h) := .thinRepairs (.filter _ _)

theorem deferEntries (b : Nat) : s.KeepsBounds C (s.deferEntries h b) :=
  .thinRepairs ((Thins.filter _ _).trans (.map _ fun e => by split <;> rfl))

/-- A SKIP entry is new only where fewer than 24 stand (R146). -/
theorem skipEntry : s.KeepsBounds C (s.skipEntry h).1 := by
  unfold State.skipEntry
  dsimp only
  split
  · refine .thinRepairs (.changeFirst _ ?_ _)
    exact fun _ => rfl
  · split
    · refine .thinRepairs (.changeFirst _ ?_ _)
      exact fun _ => rfl
    · split
      · next room =>
        dsimp only
        refine .setRepairs (fun _ => ?_) ?_
        · exact Nat.succ_le_of_lt room
        · exact List.Subperm.refl _
      · exact .refl s

theorem skipOrPost : s.KeepsBounds C (s.skipOrPost h) := by
  have skipped : s.KeepsBounds C (s.skipEntry h).1 := .skipEntry s h
  unfold State.skipOrPost
  split
  · next e => rw [e] at skipped; exact skipped
  · next e => rw [e] at skipped; exact skipped.trans (.post _ _ _ _)

/-! ### Heads that change their state (R134, R149, R151) -/

variable {s h}

theorem changeHead {st : HeadState} (cause : Option HeadCause) (mem : C → h ∈ headNumbers)
    (admits : C → s.FaultLaw → s.Admits h st) : s.KeepsBounds C (s.changeHead h st cause) := by
  unfold State.changeHead
  split
  · next leaves =>
    refine (unmarkEntries s h).trans (.setHeadState cause mem fun _ law => law.admits_of_repair ?_ st)
    exact (State.OnlyHeads.setRepairs s _).pass.trans leaves.2.2
  · exact .setHeadState cause mem admits

/-- A head that has no FAULT entry in a MAIN pass and is present. -/
theorem changeHead_free {st : HeadState} (cause : Option HeadCause) (mem : C → h ∈ headNumbers)
    (free : (s.head h).state.free) : s.KeepsBounds C (s.changeHead h st cause) :=
  .changeHead cause mem fun c law => law.admits_of_free (mem c) free st

theorem enterHead {st : HeadState} (mem : C → h ∈ headNumbers) (repair : C → s.run.pass = .repair) :
    s.KeepsBounds C (s.enterHead h st) :=
  .ite (.refl s) (.changeHead none mem fun c law => law.admits_of_repair (repair c) st)

theorem placeHead (mem : C → h ∈ headNumbers) (repair : C → s.run.pass = .repair) : s.KeepsBounds C (s.placeHead h) := by
  have enter : ∀ st j, s.KeepsBounds C ((s.enterHead h st).setJoin h j) := fun st j =>
    (enterHead mem repair).trans (.setJoin _ h j)
  unfold State.placeHead
  refine .ite (.ite (enter _ _) ((enter _ _).trans (.markEntries _ _ _))) ?_
  split
  · exact enter _ _
  · exact enter _ _

theorem returnHead (mem : C → h ∈ headNumbers)
    (admits : C → s.FaultLaw → s.run.pass = .main → s.Admits h .active) : s.KeepsBounds C (s.returnHead h) := by
  unfold State.returnHead
  split
  · next main => exact .changeHead none mem fun c law => admits c law main
  · next repair =>
    have pass : (s.undefer h).run.pass = .repair := (State.OnlyHeads.setRepairs s _).pass.trans repair
    exact (undefer s h).trans (.placeHead mem fun _ => pass)

theorem returnHead_free (mem : C → h ∈ headNumbers) (free : (s.head h).state.free) : s.KeepsBounds C (s.returnHead h) :=
  .returnHead mem fun c law _ => law.admits_of_free (mem c) free _

/-- Heads visited one by one, in states all of which are as `P` says. -/
theorem foldl_while {P : State → Prop} {f : State → Nat → State} {l : List Nat} (start : P s)
    (stays : ∀ t g, P t → P (f t g)) (each : ∀ t, P t → ∀ g ∈ l, t.KeepsBounds C (f t g)) :
    s.KeepsBounds C (l.foldl f s) := by
  induction l generalizing s with
  | nil => exact .refl s
  | cons g rest ih =>
    exact (each s start g List.mem_cons_self).trans
      (ih (stays s g start) fun t here g mem => each t here g (List.mem_cons_of_mem _ mem))

theorem placeAll (repair : C → s.run.pass = .repair) : s.KeepsBounds C s.placeAll := by
  refine .foldl_while (P := s.OnlyHeads) (.refl s) (fun t g here => here.trans ?_) fun t here g mem => ?_
  · split
    · exact .setJoin t g none
    · exact .setJoin t g none
    · exact .setJoin t g none
    · exact .placeHead t g
  · split
    · exact .setJoin t g none
    · exact .setJoin t g none
    · exact .setJoin t g none
    · exact .placeHead (fun _ => mem) fun c => here.pass.trans (repair c)

/-- With no FAULT entry left DISARM returns heads that are present (R73). -/
theorem returnHeads (bare : s.repairs = []) : s.KeepsBounds C s.returnHeads := by
  rw [State.returnHeads_eq]
  refine .foldl_while (P := fun t => t.repairs = []) bare (fun t g bare => ?_) fun t bare g mem => ?_
  · unfold State.disarmHead
    split
    · exact (t.repairs_setHeadState g _ _).trans bare
    · exact bare
  · unfold State.disarmHead
    split
    · next returns =>
      refine .setHeadState none (fun _ => mem) fun _ law => ⟨fun _ fault => ?_, fun lasts => ?_⟩
      · rw [bare] at fault
        cases fault
      · have present : t.present g = true := by
          rw [State.present_iff]
          rcases ((t.disarmReturns_iff g).mp returns).1 with state | state | state | state <;>
            (rw [state]; exact ⟨nofun, nofun⟩)
        rw [law.noEnumeration_of_present mem present] at lasts
        cases lasts
    · exact .refl t

/-! ### Faults (R138, R146, R152) -/

/-- A FAULT entry of a head HELD_FAULT that has none, beside entries none of which is new. -/
theorem addFault {l : List RepairEntry} {e : RepairEntry} (thin : Thins s.repairs l) (fault : e.isFault = true)
    (known : C → s.FaultLaw → e.head ∈ headNumbers ∧ (s.head e.head).state = .heldFault ∧ e.head ∉ faultHeads s.repairs) :
    s.KeepsBounds C (s.setRepairs (e :: l)) := by
  have tagged : Thins (e :: l) (sortEntries (e :: l)) := .sortEntries _
  have heads : (faultHeads (sortEntries (e :: l))).Subperm (e.head :: faultHeads s.repairs) := by
    refine tagged.faultHeads.trans ?_
    rw [faultHeads, List.filter_cons_of_pos fault, List.map_cons]
    exact (List.subperm_cons _).mpr thin.faultHeads
  have skips : ((e :: l).filter (·.isSkip)).length = (l.filter (·.isSkip)).length := by
    rw [List.filter_cons_of_neg]
    rw [e.isSkip_eq, fault]
    decide
  rw [State.setRepairs_eq]
  refine ⟨id, id, fun ⟨_, share⟩ => ⟨sortEntries_sorted _, ?_⟩, fun c law => ?_⟩
  · exact (tagged.skips.trans (skips.le.trans thin.skips)).trans share
  · obtain ⟨mem, held, new⟩ := known c law
    exact (law.withFault heads new mem held).of_bench rfl

/-- The fault of a head HELD_FAULT: in a MAIN pass of one that has no FAULT entry yet. -/
theorem faultEntry (cause : ThreadFault) (f : Nat)
    (known : C → s.FaultLaw → h ∈ headNumbers ∧ (s.head h).state = .heldFault ∧
      (s.run.pass = .main → h ∉ faultHeads s.repairs)) : s.KeepsBounds C (s.faultEntry h cause f) := by
  unfold State.faultEntry
  extract_lets fresh moved
  split
  · next main =>
    refine .addFault (.refl _) rfl fun c law => ?_
    obtain ⟨mem, held, new⟩ := known c law
    exact ⟨mem, held, new main⟩
  · next repair =>
    have thin : Thins s.repairs moved := .map _ fun e => by
      split
      · rfl
      · split
        · next fault =>
          split
          · exact congrArg (Prod.mk e.head) fault.symm
          · rfl
        · split <;> rfl
    split
    · exact .thinRepairs thin
    · next none =>
      refine .addFault thin rfl fun c law => ?_
      obtain ⟨mem, held, -⟩ := known c law
      refine ⟨mem, held, fun fault => none ?_⟩
      obtain ⟨e, listed, isFault, head⟩ := mem_faultHeads.mp fault
      exact List.any_eq_true.mpr ⟨e, listed, by rw [head, isFault]; simp [fresh]⟩

/-- The fault action of an ACTIVE head, which has no FAULT entry in a MAIN pass. -/
theorem faultAction (cause : ThreadFault) (mem : C → h ∈ headNumbers) (active : (s.head h).state = .active) :
    s.KeepsBounds C (s.faultAction h cause) := by
  have free : (s.head h).state.free := active ▸ HeadState.free_active
  have heads : s.OnlyHeads (s.setHeadState h .heldFault (some (.thread cause))) := .setHeadState s h _ _
  refine .of_law (trans (trans (.setHeadState _ (mem ·.1) fun c law => law.admits_of_free (mem c.1) free _)
    (.faultEntry cause _ fun c _ => ⟨mem c.1, (s.head_setHeadState h h _ _).1, fun main => ?_⟩)) (.post _ _ _ _))
  rw [State.repairs_setHeadState]
  exact c.2.not_mem_of_free free (heads.pass.symm.trans main)

theorem faultAll {l : List Nat} (nodup : l.Nodup) (known : ∀ g ∈ l, g ∈ headNumbers)
    (active : ∀ g ∈ l, (s.head g).state = .active) :
    s.KeepsBounds C (l.foldl (fun u g => u.faultAction g .breakFault) s) := by
  induction l generalizing s with
  | nil => exact .refl s
  | cons h rest ih =>
    obtain ⟨new, nodup⟩ := List.nodup_cons.mp nodup
    refine trans (.faultAction .breakFault (fun _ => known h List.mem_cons_self) (active h List.mem_cons_self))
      (ih nodup (fun g mem => known g (List.mem_cons_of_mem _ mem)) fun g mem => ?_)
    rw [s.head_faultAction_other .breakFault fun (same : g = h) => new (same ▸ mem)]
    exact active g (List.mem_cons_of_mem _ mem)

theorem addStitches (s : State) (n : Nat) : s.KeepsBounds C (s.addStitches n) :=
  .foldl headNumbers (fun t h _ => by
    split
    · exact .putHead_same rfl
    · exact .refl t) s

/-- The handover of STEPs faults ACTIVE heads alone, each once (R86, R136). -/
theorem handover (s : State) (n : Nat) : s.KeepsBounds C (s.handover n) := by
  unfold State.handover
  extract_lets t broken
  have added : s.KeepsBounds C t := .addStitches s n
  refine .ite added (added.trans (trans (.faultAll ?_ ?_ ?_) (.applyPolicy _)))
  · exact headNumbers_nodup.filter _
  · exact fun g mem => List.mem_of_mem_filter mem
  · intro g mem
    have breaks := (List.mem_filter.mp mem).2
    rw [Bool.and_eq_true, decide_eq_true_eq] at breaks
    exact breaks.1

/-! ### The loss of a head (R108, R126, R135) -/

theorem forgetHead (s : State) (h : Nat) : s.KeepsBounds C (s.forgetHead h) := by
  have same : ∀ f, (s.ring.flight.map fun t => if t.request.head = h then { t with headLost := true } else t) = some f →
      ∃ g, s.ring.flight = some g ∧ f.request = g.request ∧ f.discarded = g.discarded := by
    intro f flight
    obtain ⟨g, flying, rfl⟩ := Option.map_eq_some_iff.mp flight
    refine ⟨g, flying, ?_⟩
    split <;> exact ⟨rfl, rfl⟩
  refine ⟨id, id, id, fun _ law => State.FaultLaw.of_bench (s := s.withRing (s.forgetHead h).ring) ?_ rfl⟩
  refine law.withRing rfl rfl (fun q mem => ?_) (fun f flight => ?_) fun lasts f flight => ?_
  · exact law.requests q (List.mem_of_mem_filter mem)
  · obtain ⟨g, flying, request, -⟩ := same f flight
    rw [request]
    exact law.flight g flying
  · obtain ⟨g, flying, request, discarded⟩ := same f flight
    rw [request, discarded]
    exact (law.enumeration lasts).flight g flying

theorem loseHead (s : State) (c : LossCause) (mem : C → h ∈ headNumbers) : s.KeepsBounds C (s.loseHead h c) :=
  ((changeHead _ mem fun _ _ => s.admits_lost h).trans (.forgetHead _ h)).trans (.post _ _ _ _)

end State.KeepsBounds

end Sys2Proof.Machine
end

section
/-! PROOF SUPPORT. The bounds of the queues along changes, halts, reports and walks (chapters 4 to 7 and 10). -/

namespace Sys2Proof.Machine

open Sys2Proof

variable {C : Prop} {s t u : State} {h : Nat}

/-- A change in progress stands in CHANGING. -/
theorem State.operationsMatch.changing (mode : s.operationsMatch) (change : s.change.isSome = true) :
    s.run.state ≠ .idle := by
  rw [(mode.of_change change).1]
  nofun

/-- A step of a walk leaves who asked for it. -/
theorem WalkRecord.meet_requester (w : WalkRecord) (r : StitchRecord) : (w.meet r).1.requester = w.requester := by
  have back : (w.stepBack r).requester = w.requester := by
    unfold WalkRecord.stepBack
    dsimp only
    split <;> rfl
  have forward : (w.stepForward r).requester = w.requester := by
    unfold WalkRecord.stepForward
    dsimp only
    split <;> rfl
  unfold WalkRecord.meet
  split
  · exact back
  · split
    · rfl
    · exact forward
  · split
    · exact back
    · exact forward
  · split
    · split
      · rfl
      · exact back
    · exact forward

/-- A walk handed over leaves the run FINISHED or PAUSED. -/
theorem State.takeWalk_rests (s : State) (w : WalkRecord) : (s.takeWalk w).run.state ≠ .idle := by
  rw [State.takeWalk_eq]
  simp only [State.withSeq_run, State.withRun_run]
  split <;> nofun

namespace State.KeepsBounds

/-! ### Changes (chapter 7) -/

theorem holdAtChange (mem : C → h ∈ headNumbers) (free : (s.head h).state.free) : s.KeepsBounds C (s.holdAtChange h) := by
  have held : s.KeepsBounds C (s.setHeadState h .heldNeedle none) :=
    .setHeadState none mem fun c law => law.admits_of_free (mem c) free _
  unfold State.holdAtChange
  split
  · exact held
  · exact held.trans (.deferEntries _ _ _)

theorem checkHead (mem : C → h ∈ headNumbers) : s.KeepsBounds C (s.checkHead h).1 := by
  unfold State.checkHead
  split
  · next active _ =>
    have skipped : s.KeepsBounds C ((s.holdAtChange h).skipEntry h).1 :=
      (holdAtChange mem (by rw [active]; exact HeadState.free_active)).trans (.skipEntry _ h)
    split
    next e => rw [e] at skipped; exact skipped
  · have skipped : s.KeepsBounds C (s.skipEntry h).1 := .skipEntry s h
    split
    next e => rw [e] at skipped; exact skipped
  · next held _ => exact .returnHead_free mem (by rw [held]; exact HeadState.free_heldNeedle)
  · exact .refl s

theorem inhibitCheck {hs : List Nat} (known : ∀ g ∈ hs, g ∈ headNumbers) : s.KeepsBounds C (s.inhibitCheck hs).1 := by
  induction hs generalizing s with
  | nil => exact .refl s
  | cons g rest ih =>
    have first : s.KeepsBounds C (s.checkHead g).1 := .checkHead fun _ => known g List.mem_cons_self
    unfold State.inhibitCheck
    split
    next t full e =>
      rw [e] at first
      have later := first.trans (ih (s := t) fun g mem => known g (List.mem_cons_of_mem _ mem))
      split
      next f => rw [f] at later; exact later

theorem resumeDecision (action : ChangeAction) (full : Option Nat) (live : C → s.run.state ≠ .idle) :
    s.KeepsBounds C (s.resumeDecision action full) := by
  have paused : s.KeepsBounds C (s.setRunState .paused) := .setRunState_live live RunState.online_paused
  have stopped : ∀ reason k head param, s.KeepsBounds C (((s.setRunState .paused).setStopReason reason).post k head param) :=
    fun _ _ _ _ => (paused.trans (.setStopReason _ _)).trans (.post _ _ _ _)
  have runs : s.KeepsBounds C ((s.setRunState .running).withSeq { s.seq with ramp := s.constants.ramp }) :=
    trans (.setRunState_live live RunState.online_running) (.same rfl rfl rfl)
  unfold State.resumeDecision
  refine .ite (stopped _ _ _ _) ?_
  split
  · exact stopped _ _ _ _
  · split
    · exact runs
    · exact runs
    · exact stopped _ _ _ _
    · exact paused.trans (.postStopped _)

theorem completeChange (c : ChangeRecord) (live : C → s.run.state ≠ .idle) : s.KeepsBounds C (s.completeChange c) := by
  rw [State.completeChange_eq]
  have needle : s.KeepsBounds C (s.settledNeedle c) := .same rfl rfl rfl
  have checked := needle.trans (inhibitCheck fun _ mem => mem)
  have run := (State.OnlyHeads.inhibitCheck (s.settledNeedle c) headNumbers).run
  generalize ((s.settledNeedle c).inhibitCheck headNumbers).1 = u at checked run
  generalize ((s.settledNeedle c).inhibitCheck headNumbers).2 = full
  have now : C → u.run.state ≠ .idle := fun c => by
    rw [run]
    exact live c
  unfold State.concludeChange
  have marked : s.KeepsBounds C (u.withChange (u.change.map fun d => { d with listFull := full.isSome })) :=
    checked.trans (.same rfl rfl rfl)
  exact ((marked.trans (.resumeDecision c.action full now)).trans (.post _ _ _ _)).trans (.same rfl rfl rfl)

theorem settleChange (live : C → s.change.isSome = true → s.run.state ≠ .idle) : s.KeepsBounds C s.settleChange := by
  unfold State.settleChange
  split
  · next c change =>
    exact .ite (.completeChange c fun c => live c (by rw [change]; rfl)) (.refl s)
  · exact .refl s

theorem settle (mode : C → s.operationsMatch) : s.KeepsBounds C s.settleChange := .settleChange fun c => (mode c).changing

theorem startChange (needle : Nat) (action : ChangeAction) (live : C → s.run.state ≠ .idle) :
    s.KeepsBounds C (s.startChange needle action) := by
  unfold State.startChange
  extract_lets record t src u
  have begun : s.KeepsBounds C (s.withChange (some record)) := .same rfl rfl rfl
  have changing : s.KeepsBounds C t := begun.trans (.setRunState_live live RunState.online_changing)
  have state : t.run.state = .changing := State.setRunState_state _ _
  have flown : t.KeepsBounds C u := by
    refine ⟨id, id, id, fun _ law => law.withRing rfl rfl law.requests (fun f flight => ?_) fun lasts => ?_⟩
    · obtain ⟨g, flying, rfl⟩ := Option.map_eq_some_iff.mp flight
      exact law.flight g flying
    · rw [law.noEnumeration (by rw [state]; nofun)] at lasts
      cases lasts
  refine ((changing.trans flown).trans (.offer fun _ => .inr rfl)).trans (.settleChange fun _ _ => ?_)
  obtain ⟨q, e⟩ := u.offer_eq { function := .selectNeedle, head := broadcastId, data := needle }
  rw [e]
  exact fun idle => by rw [show t.run.state = .idle from idle] at state; cases state

theorem startRun (s : State) : s.KeepsBounds C s.startRun := by
  refine .ite (.refuse s _ _) ?_
  split
  · exact .refuse s _ _
  · next armed =>
    have live : s.run.state ≠ .idle := fun idle => armed (by rw [idle]; exact ⟨nofun, nofun⟩)
    have reason : s.KeepsBounds C (s.setStopReason .none) := .setStopReason s _
    refine .ite (.refuse s _ _) (trans (.ite ?_ ?_) (.reply _ _ _ _))
    · exact reason.trans (.startChange _ _ fun _ => live)
    · exact (reason.trans (.setRunState_live (fun _ => live) RunState.online_running)).trans (.same rfl rfl rfl)

theorem confirmNeedle (k : Transaction) (w : RingWord) (mode : C → s.operationsMatch) :
    s.KeepsBounds C (s.confirmNeedle k w) := by
  unfold State.confirmNeedle
  split
  · exact .refl s
  · next c change =>
    refine .ite (after (.settleChange fun m _ => ?_) (.same rfl rfl rfl)) (.refl s)
    exact (mode m).changing (by rw [change]; rfl)

/-- A head that is lost, the stop it may ask for, and the change it may complete. -/
theorem loseAndSettle (c : LossCause) (wasActive : Bool) (mem : C → h ∈ headNumbers) (mode : C → s.operationsMatch) :
    s.KeepsBounds C (((s.loseHead h c).stopForLoss wasActive).settleChange) := by
  refine ((loseHead s c mem).trans (.stopForLoss _ _)).trans (.settle fun m => ?_)
  exact ((State.Steady.of_footing (s.footing_loseHead h c)).trans (.stopForLoss _ wasActive)).2.operationsMatch (mode m)

theorem changeDeadline (s : State) : s.KeepsBounds s.operationsMatch s.changeDeadline := by
  unfold State.changeDeadline
  split
  · exact .refl s
  · refine .ite (.refl s) (trans (.foldl _ (fun t h mem => ?_) s) (.settle fun mode => ?_))
    · exact .loseHead t _ fun _ => List.mem_of_mem_filter mem
    · exact (State.Steady.of_footing (State.footing_foldl s (fun t h => t.footing_loseHead h .needle) _)).2.operationsMatch mode

/-! ### The Repair List at a completion (R147, R151 to R153) -/

theorem finishRepair (live : C → s.run.state ≠ .idle) : s.KeepsBounds C s.finishRepair :=
  (setRunState_live live RunState.online_finished).trans (.post _ _ _ _)

theorem checkPassEmptied (s : State) : s.KeepsBounds C s.checkPassEmptied := by
  unfold State.checkPassEmptied State.passEmptied
  refine .ite ?_ (.refl s)
  split
  · exact .requestStop s _
  · exact .requestStop s _
  · next paused => exact .finishRepair fun _ => by rw [paused]; nofun
  · refine ⟨id, id, id, fun _ law => law.withWalk fun v some => ?_⟩
    obtain ⟨w, walking, rfl⟩ := Option.map_eq_some_iff.mp some
    exact law.walk w walking
  · exact .refl s

theorem passUpdate (repair : s.run.pass = .repair) : s.KeepsBounds C s.passUpdate := by
  unfold State.passUpdate
  extract_lets marked losers removed placed
  have entries : s.KeepsBounds C removed :=
    (thinRepairs (.map _ fun e => by split <;> rfl)).trans (.thinRepairs (.filter _ _))
  have pass : removed.run.pass = .repair :=
    ((State.OnlyHeads.setRepairs s _).trans (.setRepairs marked _)).pass.trans repair
  refine (entries.trans ?_).trans (.checkPassEmptied placed)
  refine .foldl_while (P := fun t => t.run.pass = .repair) pass (fun t h pass => ?_) fun t pass h mem => ?_
  · split
    · exact pass
    · exact (State.OnlyHeads.returnHead t h).pass.trans pass
  · refine .ite (.refl t) (.returnHead (fun _ => List.mem_of_mem_filter mem) fun _ _ main => ?_)
    rw [pass] at main
    cases main

theorem repairCursorMoved (s : State) (k : Token) : s.KeepsBounds C (s.repairCursorMoved k) := by
  have told : s.KeepsBounds C ((s.fixToIndex k).moveDeferred k) := by
    refine trans (.thinRepairs (.map _ fun e => ?_)) (.thinRepairs ((Thins.filter _ _).trans (.map _ fun e => ?_)))
    · split
      · rfl
      · split <;> rfl
    · split <;> rfl
  unfold State.repairCursorMoved
  dsimp only
  split
  · exact told
  · next repair => exact told.trans (.passUpdate repair)

/-! ### Reports (chapter 5) -/

theorem completeToken (s : State) (k : Token) : s.KeepsBounds C (s.completeToken k) := by
  have moved : ∀ v : RunRecord, v.pass = s.run.pass → v.state = s.run.state → s.KeepsBounds C (s.withRun v) :=
    fun v pass state => .same (by simp [State.bench, pass, state]) rfl rfl
  unfold State.completeToken
  extract_lets src moves other counted
  have kept : s.KeepsBounds C counted := by
    unfold counted
    exact .ite (after (.repairCursorMoved _ k) (moved _ rfl rfl)) (moved _ rfl rfl)
  exact kept.trans (.ofQueue rfl rfl id)

theorem completeTokens (s : State) (n : Nat) : s.KeepsBounds C (s.completeTokens n) := by
  induction n generalizing s with
  | zero => exact .refl s
  | succ n ih =>
    unfold State.completeTokens
    split
    · exact .refl s
    · next k rest issued =>
      refine after (ih _) (after (.completeToken _ k) (.tokensLeave rfl rfl ?_ le_rfl))
      rw [issued]
      exact Nat.le_succ _

theorem completeReport (s : State) (n : Nat) : s.KeepsBounds C (s.completeReport n) :=
  (completeTokens s n).trans (.handover _ _)

theorem enterFault (live : C → s.run.state ≠ .idle) : s.KeepsBounds C s.enterFault := by
  have entered : s.KeepsBounds C (s.setRunState .fault) := .setRunState_live live (by simp [RunState.offline])
  refine trans (entered.trans ?_) (.post _ _ _ _)
  split
  · exact .damageSlot _ _
  · exact .refl _

theorem finishAtEnd (running : Bool) (live : C → s.run.state ≠ .idle) : s.KeepsBounds C (s.finishAtEnd running) := by
  unfold State.finishAtEnd
  extract_lets trimmed t u v src w
  have trims : s.KeepsBounds C trimmed ∧ s.OnlyHeads trimmed := by
    unfold trimmed
    split
    · exact ⟨.refl s, .refl s⟩
    · exact ⟨.thinRepairs (.filter _ _), .setRepairs s _⟩
  have finished : s.KeepsBounds C t := trims.1.trans
    (.setRunState_live (fun c => by rw [trims.2.run]; exact live c) RunState.online_finished)
  have ended : s.KeepsBounds C w :=
    ((finished.trans (.ite (.setStopReason _ _) (.refl _))).trans (.post _ _ _ _)).trans (.same rfl rfl rfl)
  split
  · exact ended
  · exact ended.trans (.post _ _ _ _)

theorem joinHeads (s : State) : s.KeepsBounds C s.joinHeads := by
  refine .foldl headNumbers (fun t h mem => ?_) s
  unfold State.joinHead
  split
  · next joins =>
    have free : (t.head h).state.free := by rw [joins.1]; exact HeadState.free_waiting
    have changed : ∀ st, t.KeepsBounds C (t.changeHead h st none) := fun st => .changeHead_free none (fun _ => mem) free
    exact .ite ((changed _).trans (.skipEntry _ h)) ((changed _).trans (.markEntries _ _ _))
  · exact .refl t

theorem haltOutcome (k : Token) (running : Bool) (live : C → s.run.state ≠ .idle) :
    s.KeepsBounds C (s.haltOutcome k running) := by
  have paused : s.KeepsBounds C (s.setRunState .paused) := .setRunState_live live RunState.online_paused
  have state : s.joinHeads.run.state = s.run.state := State.runState_of_footing s.footing_joinHeads
  unfold State.haltOutcome
  split
  · exact .startChange _ _ live
  · exact (paused.trans (.ite (.setStopReason _ _) (.refl _))).trans (.post _ _ _ _)
  · exact .finishAtEnd running live
  · exact .ite (.joinHeads s) (((joinHeads s).trans
      (.setRunState_live (fun c => by rw [state]; exact live c) RunState.online_paused)).trans (.postStopped _))
  · exact .refl s

theorem resolveHalt (s : State) (k : Token) : s.KeepsBounds C (s.resolveHalt k) := by
  unfold State.resolveHalt
  extract_lets src u
  refine trans (t := u) (.same rfl rfl rfl) ?_
  split
  · next running => exact .haltOutcome k true fun _ => by rw [running]; nofun
  · next stopping =>
    have live : C → u.run.state ≠ .idle := fun _ => by rw [stopping]; nofun
    exact .ite (.enterFault live) (.ite (.finishRepair live) (.haltOutcome k false live))
  · exact .refl u

theorem stoppedOutcome (s : State) : s.KeepsBounds C s.stoppedOutcome := by
  unfold State.stoppedOutcome
  split
  · next stopping =>
    have live : C → s.run.state ≠ .idle := fun _ => by rw [stopping]; nofun
    exact .ite (.enterFault live) (.ite (.finishRepair live)
      ((setRunState_live live RunState.online_paused).trans (.postStopped _)))
  · next running =>
    exact trans (trans (.setRunState_live (fun _ => by rw [running]; nofun) RunState.online_paused) (.setStopReason _ _))
      (.postStopped _)
  · exact .refl s

theorem comeToRest (s : State) (halt : Option Token) : s.KeepsBounds C (s.comeToRest halt) := by
  unfold State.comeToRest
  split
  · exact (rollback s).trans (.resolveHalt _ _)
  · exact (rollback s).trans (.stoppedOutcome _)

theorem doneReport (s : State) (seq : Nat) : s.KeepsBounds C (s.doneReport seq) := by
  unfold State.doneReport
  split
  · next n _ =>
    refine trans ?_ (.reply _ _ _ _)
    have completed : s.KeepsBounds C (s.completeReport n) := .completeReport s n
    unfold State.takeDone
    dsimp only
    split
    · exact completed.trans (.comeToRest _ _)
    · exact completed
  · exact .refuse s _ _

theorem stoppedReport (s : State) (form seq : Nat) : s.KeepsBounds C (s.stoppedReport form seq) := by
  unfold State.stoppedReport
  split
  · next n _ => exact ((completeReport s n).trans (.comeToRest _ _)).trans (.reply _ _ _ _)
  · exact .refuse s _ _

/-! ### Walks (chapter 6) -/

theorem takeWalk (w : WalkRecord) (live : C → s.run.state ≠ .idle) : s.KeepsBounds C (s.takeWalk w) := by
  have ended : s.KeepsBounds C (s.withWalk none) := ⟨id, id, id, fun _ law => law.withWalk nofun⟩
  have state : (s.withWalk none).KeepsBounds C
      ((s.withWalk none).setRunState (if w.cursor = s.designLength then .finished else .paused)) := by
    refine .setRunState_live live ?_
    split
    · exact RunState.online_finished
    · exact RunState.online_paused
  have taken := ended.trans state
  obtain ⟨b, a, e⟩ := (s.withWalk none).setRunState_eq (if w.cursor = s.designLength then .finished else .paused)
  rw [e] at taken
  exact taken.trans (.same rfl rfl rfl)

theorem endWalk (w : WalkRecord) (cause : WalkEnd) (live : C → s.run.state ≠ .idle)
    (repair : C → w.requester = .repair → s.run.pass = .repair) : s.KeepsBounds C (s.endWalk w cause) := by
  have dropped : s.KeepsBounds C (s.dropRead .walk) := .dropRead s .walk
  obtain ⟨a, drop⟩ := s.dropRead_eq .walk
  unfold State.endWalk
  extract_lets taken skipped placed
  have handed : s.KeepsBounds C taken := dropped.trans (.takeWalk w fun c => by rw [drop]; exact live c)
  have pass : taken.run.pass = s.run.pass := by
    unfold taken
    rw [drop]
    rfl
  have rests : taken.run.state ≠ .idle := (s.dropRead .walk).takeWalk_rests w
  have skips : s.KeepsBounds C skipped := handed.trans (.foldl _ (fun t h _ => .skipOrPost t h) _)
  have faults : taken.OnlyFaults skipped := .foldl State.OnlyFaults.skipOrPost _ _
  have places : s.KeepsBounds C placed ∧ taken.OnlyFaults placed := by
    unfold placed
    split
    · exact ⟨skips, faults⟩
    · next requester =>
      refine ⟨skips.trans (.placeAll fun c => ?_), faults.trans (.placeAll _)⟩
      rw [faults.run]
      exact pass.trans (repair c requester)
  refine trans (places.1.trans (.post _ _ _ _)) (.ite (.finishRepair fun _ => ?_) (.refl _))
  rw [((places.2.trans (.post _ _ _ _))).run]
  exact rests

theorem advanceWalk (w : WalkRecord) (live : C → s.run.state ≠ .idle)
    (repair : C → w.requester = .repair → s.run.pass = .repair) : s.KeepsBounds C (s.advanceWalk w) := by
  unfold State.advanceWalk
  split
  · exact .endWalk w _ live repair
  · refine after (.askRead _ _ _) ⟨id, id, id, fun c law => law.withWalk fun v some => ?_⟩
    cases some
    exact repair c

theorem startWalk (requester : WalkRequester) (mode : WalkMode) (goal : Nat) (direction : WalkDirection)
    (live : s.run.state ≠ .idle) (repair : requester = .repair → s.run.pass = .repair) :
    s.KeepsBounds C (s.startWalk requester mode goal direction) := by
  have walking : s.KeepsBounds C (s.setRunState .walking) := .setRunState_live (fun _ => live) RunState.online_walking
  obtain ⟨b, a, e⟩ := s.setRunState_eq .walking
  refine walking.trans (.advanceWalk _ (fun _ => ?_) fun _ => ?_)
  · rw [State.setRunState_state]
    nofun
  · rw [e]
    exact repair

theorem walkRun (s : State) (mode n : Nat) : s.KeepsBounds C (s.walkRun mode n) := by
  unfold State.walkRun
  split
  · exact .refuse s _ _
  · next m _ =>
    refine .ite (.refuse s _ _) (.ite (.refuse s _ _) ?_)
    split
    · exact .refuse s _ _
    · next rests =>
      have live : s.run.state ≠ .idle := fun idle => rests (by rw [idle]; exact ⟨nofun, nofun, nofun⟩)
      refine trans ?_ (.reply _ _ _ _)
      unfold State.beginWalk
      split
      · exact .startWalk _ _ _ _ live nofun
      · exact .startWalk _ _ _ _ live nofun
      · exact .startWalk _ _ _ _ live nofun
      · exact .startWalk _ _ _ _ live nofun

/-- REPAIR makes the pass a REPAIR pass, out of IDLE and ARMING (R148). -/
theorem beginRepair (resting : s.run.state = .paused ∨ s.run.state = .finished) :
    s.KeepsBounds C ((s.withRun { s.run with pass := .repair, outstanding := false }).withRepairs
      (s.repairs.map fun e => { e with sewing := false, deferred := none })) := by
  have thin : Thins s.repairs (s.repairs.map fun e => { e with sewing := false, deferred := none }) := .map _ fun _ => rfl
  refine ⟨id, id, fun ⟨sorted, share⟩ => ⟨?_, thin.skips.trans share⟩, fun _ law => ?_⟩
  · exact List.pairwise_map.mpr sorted
  · refine State.FaultLaw.withRepairs (s := s.withRun { s.run with pass := .repair, outstanding := false }) ?_ thin.faultHeads
    exact { law with
      faulted := nofun
      main := fun off => by
        rcases resting with state | state
        · exact absurd (state ▸ off) RunState.online_paused
        · exact absurd (state ▸ off) RunState.online_finished
      walk := fun _ _ _ => rfl
      enumeration := fun lasts => by
        have idle := (law.enumeration lasts).idle
        rcases resting with state | state <;> (rw [state] at idle; cases idle) }

theorem repairRun (s : State) : s.KeepsBounds C s.repairRun := by
  refine .ite (.refuse s _ _) ?_
  split
  · exact .refuse s _ _
  · next rests =>
    have resting : s.run.state = .paused ∨ s.run.state = .finished := by
      rw [not_and_or, not_not, not_not] at rests
      exact rests
    refine .ite (.refuse s _ _) (trans (trans (.beginRepair resting) (.startWalk _ _ _ _ ?_ fun _ => rfl)) (.reply _ _ _ _))
    intro idle
    rcases resting with state | state <;> (rw [show s.run.state = .idle from idle] at state; cases state)

theorem walkRecord {w : WalkRecord} (r : StitchRecord) (live : C → s.run.state ≠ .idle)
    (repair : C → w.requester = .repair → s.run.pass = .repair) : s.KeepsBounds C (s.walkRecord w r) := by
  have requester := w.meet_requester r
  unfold State.walkRecord
  split
  · next u cause e =>
    rw [e] at requester
    exact .endWalk u cause live fun c asked => repair c (requester.symm.trans asked)
  · next u e =>
    rw [e] at requester
    exact .advanceWalk u live fun c asked => repair c (requester.symm.trans asked)

theorem walkFault {w : WalkRecord} (x : StoreRead) (live : C → s.run.state ≠ .idle)
    (repair : C → w.requester = .repair → s.run.pass = .repair) : s.KeepsBounds C (s.walkFault w x) := by
  unfold State.walkFault
  extract_lets slot t
  have recorded : s.KeepsBounds C t := (recordFault s _ _ _ _ _).trans (.damageSlot _ _)
  have run : (t.post .memoryFault 0 (chunkParam x.chunk)).run = s.run := by
    obtain ⟨f, fault, -⟩ := s.recordFault_eq .walk (some (walkCommand w.requester)) slot (x.index - x.index % 4) .memory
    obtain ⟨q, damaged⟩ := (s.withFaultRecord f).damageSlot_eq slot
    obtain ⟨v, posted⟩ := t.post_eq .memoryFault 0 (chunkParam x.chunk)
    rw [posted, show t = (s.withFaultRecord f).withSlots q by rw [← damaged, ← fault]]
    rfl
  exact (recorded.trans (.post _ _ _ _)).trans (.endWalk w .memory (run ▸ live) (run ▸ repair))

theorem walkReadDone (s : State) : s.KeepsBounds s.operationsMatch s.walkReadDone := by
  unfold State.walkReadDone
  split
  · next read _ _ _ =>
    have done : s.KeepsBounds (s.operationsMatch ∧ s.FaultLaw) (s.readChunk read.chunk).1 := .readChunk s _
    obtain ⟨st, v, read_eq, -⟩ := s.readChunk_eq read.chunk
    split
    next t result e =>
      rw [e] at done read_eq
      have ended := done.trans (.endAccess t .walk)
      have kept : (t.endAccess .walk).walk = s.walk ∧ (t.endAccess .walk).run = s.run := by
        rw [show t = _ from read_eq]
        exact ⟨rfl, rfl⟩
      dsimp only
      generalize t.endAccess .walk = u at ended kept
      obtain ⟨walk, run⟩ := kept
      refine .of_law (ended.trans ?_)
      split
      · next w walking _ =>
        have known : s.walk = some w := walk.symm.trans walking
        have live : s.operationsMatch ∧ s.FaultLaw → u.run.state ≠ .idle := fun ⟨mode, _⟩ => by
          rw [run, (mode.of_walk (by rw [known]; rfl)).1]
          nofun
        have repair : s.operationsMatch ∧ s.FaultLaw → w.requester = .repair → u.run.pass = .repair := fun ⟨_, law⟩ => by
          rw [run]
          exact law.walk w known
        split
        · exact .walkRecord _ live repair
        · exact .walkFault _ live repair
      · exact .refl u
  · exact .refl s

end State.KeepsBounds

end Sys2Proof.Machine
end

section
/-! PROOF SUPPORT. The bounds of the queues along the ring's transactions, answers and misses, the commands on heads, ARM and
DISARM (chapters 4, 8 and 9). -/

namespace Sys2Proof.Machine

open Sys2Proof

variable {C : Prop} {s t u : State} {h : Nat}

/-- What the placing of a head at the end of an enumeration leaves (R130). -/
theorem State.placeFound_leaves (s : State) (foundA foundB h : Nat) :
    (s.placeFound foundA foundB h).repairs = s.repairs ∧
      (s.placeFound foundA foundB h).ring.enumeration = s.ring.enumeration := by
  have set : ∀ (t : State) st cause, (t.setHeadState h st cause).repairs = t.repairs ∧
      (t.setHeadState h st cause).ring.enumeration = t.ring.enumeration := by
    intro t st cause
    obtain ⟨r, q, e, -⟩ := t.setHeadState_eq h st cause
    rw [e]
    exact ⟨rfl, rfl⟩
  unfold State.placeFound
  dsimp only
  split
  · split
    · exact set _ _ _
    · exact set _ _ _
  · split
    · exact set _ _ _
    · exact set _ _ _

/-- RING_START makes every head ABSENT and touches nothing else (R128). -/
theorem State.absentHeads_eq (s : State) : ∃ z, s.absentHeads = s.withHeads z ∧
    ∀ h ∈ headNumbers, ((s.withHeads z).head h).state = .absent := by
  have heads : ∀ (l : List Nat) (t : State), ∃ z,
      l.foldl (fun t h => t.putHead h { t.head h with state := .absent, cause := none }) t = t.withHeads z := by
    intro l
    induction l with
    | nil => exact fun t => ⟨t.heads, rfl⟩
    | cons g rest ih => exact fun t => ih (t.putHead g { t.head g with state := .absent, cause := none })
  obtain ⟨z, e⟩ := heads headNumbers s
  refine ⟨z, e, fun h mem => ?_⟩
  rw [← e]
  obtain ⟨pre, post, -, -, -, -, left⟩ := State.head_foldl_of_mem
    (f := fun t h => t.putHead h { t.head h with state := .absent, cause := none })
    (fun t h g other => (t.head_putHead h g _).trans (if_neg other)) s headNumbers_nodup mem
  rw [left, State.head_putHead, if_pos rfl]

/-- What the law says of a unicast in flight that is no ASSIGN and whose outcome counts. -/
theorem State.unicast_known {k : Transaction} (flying : s.ring.flight = some k) (unicast : k.request.head ≠ broadcastId)
    (assign : k.request.function ≠ .assign) (counts : ¬ k.discarded = true) :
    (s.FaultLaw → k.request.head ∈ headNumbers) ∧ (s.FaultLaw → s.ring.enumeration.isSome = false) := by
  refine ⟨fun law => (law.flight k flying assign).resolve_right unicast, fun law => ?_⟩
  rw [Bool.eq_false_iff]
  exact fun lasts => ((law.enumeration lasts).flight k flying).elim assign counts

namespace State.KeepsBounds

/-! ### Transactions (R121, R127) -/

/-- A transaction put in flight that the ring may hold. -/
theorem fly {k : Transaction} (known : C → k.request.function ≠ .assign → k.request.addressed)
    (assigns : C → s.ring.enumeration.isSome = true → k.request.function = .assign) : s.KeepsBounds C (s.fly k) := by
  refine ⟨id, id, id, fun c law => law.withRing rfl rfl law.requests (fun f flying => ?_) fun lasts f flying => ?_⟩
  · cases flying
    exact known c
  · cases flying
    exact .inl (assigns c lasts)

/-- The transaction in flight ends. -/
theorem landed (s : State) : s.KeepsBounds C (s.withRing { s.ring with flight := none }) :=
  ⟨id, id, id, fun _ law => law.withRing rfl rfl law.requests nofun fun _ => nofun⟩

/-- Requests leave the ring queue. -/
theorem requestsLeave {l : List RingRequest} (sub : ∀ r ∈ l, r ∈ s.ring.requests) (p : Nat) :
    s.KeepsBounds C (s.withRing { s.ring with requests := l, pollPointer := p }) :=
  ⟨id, id, id, fun _ law => law.withRing rfl rfl (fun r mem => law.requests r (sub r mem)) law.flight
    fun lasts => (law.enumeration lasts).flight⟩

theorem putRingRecord (s : State) (h : Nat) (r : RingRecord) : s.KeepsBounds C (s.putRingRecord h r) :=
  ⟨id, id, id, fun _ law => law.withRing rfl rfl law.requests law.flight fun lasts => (law.enumeration lasts).flight⟩

theorem setEnumeration {e : Enumeration} (lasts : s.ring.enumeration.isSome = true) : s.KeepsBounds C (s.setEnumeration e) :=
  ⟨id, id, id, fun _ law => law.withRing rfl lasts.symm law.requests law.flight
    fun lasts => (law.enumeration lasts).flight⟩

theorem recoveryMiss (s : State) (h : Nat) : s.KeepsBounds C (s.recoveryMiss h) := .post s _ _ _

theorem flyPoll (none : C → s.ring.enumeration.isSome = false) : s.KeepsBounds C s.flyPoll := by
  unfold State.flyPoll
  split
  · next h polled =>
    have mem : h ∈ headNumbers := by
      have found := List.mem_of_find?_eq_some polled
      rw [List.mem_append] at found
      exact found.elim List.mem_of_mem_filter List.mem_of_mem_filter
    refine trans (.requestsLeave (fun _ => id) h) (.fly (fun _ _ => .inl mem) fun c lasts => ?_)
    exact absurd ((none c).symm.trans lasts) nofun
  · exact .refl s

theorem flyOldest {l : List RingRequest} (queued : ∀ r ∈ l, r ∈ s.ring.requests)
    (none : C → s.ring.enumeration.isSome = false) : s.KeepsBounds (C ∧ s.FaultLaw) (s.flyOldest l) := by
  induction l with
  | nil => exact after (.flyPoll fun c => none c.1) (.requestsLeave (fun _ mem => absurd mem List.not_mem_nil) _)
  | cons r rest ih =>
    have left : s.KeepsBounds (C ∧ s.FaultLaw) (s.withRing { s.ring with requests := rest }) :=
      .requestsLeave (fun q mem => queued q (List.mem_cons_of_mem _ mem)) _
    have flies : ∀ e both roundRobin sent change, s.KeepsBounds (C ∧ s.FaultLaw)
        ((s.withRing { s.ring with requests := rest }).fly (transactionOf r e both roundRobin sent change)) :=
      fun _ _ _ _ _ => left.trans (.fly (fun c _ => c.2.requests r (queued r List.mem_cons_self))
        fun c lasts => absurd ((none c.1).symm.trans lasts) nofun)
    unfold State.flyOldest
    refine .ite (flies _ _ _ _ _) (.ite (.ite ?_ (.ite (left.trans (.recoveryMiss _ _)) (flies _ _ _ _ _)))
      (flies _ _ _ _ _))
    exact ih fun q mem => queued q (List.mem_cons_of_mem _ mem)

theorem ringTransactionStart (s : State) : s.KeepsBounds C s.ringTransactionStart := by
  have assign : ∀ k : Transaction, k.request.function = .assign → s.KeepsBounds C (s.fly k) := fun k assign =>
    .fly (fun _ other => absurd assign other) fun _ _ => assign
  unfold State.ringTransactionStart
  split
  · exact .refl s
  · split
    · exact .refl s
    · unfold State.flyEnumeration
      split
      · exact .refl s
      · split
        · exact assign _ rfl
        · exact assign _ rfl
        · exact assign _ rfl
    · next down enumerating =>
      have none : C ∧ s.FaultLaw → s.ring.enumeration.isSome = false := fun ⟨_, law⟩ => by
        rw [Bool.eq_false_iff]
        exact fun lasts => enumerating (law.enumeration lasts).ring
      have flown : s.KeepsBounds ((C ∧ s.FaultLaw) ∧ s.FaultLaw) (s.flyOldest s.ring.requests) :=
        .flyOldest (fun _ => id) none
      exact .of_law (.of_law flown)

/-! ### The enumeration (R128 to R130) -/

/-- One head placed at the end of the enumeration, when no FAULT entry stands. -/
theorem placeFound (foundA foundB : Nat) (mem : h ∈ headNumbers) (bare : C → faultHeads s.repairs = [])
    (none : C → s.ring.enumeration.isSome = false) : s.KeepsBounds C (s.placeFound foundA foundB h) := by
  have enters : ∀ (t : State) st cause, t.repairs = s.repairs → t.ring.enumeration = s.ring.enumeration →
      t.KeepsBounds C (t.setHeadState h st cause) := by
    intro t st cause repairs enumeration
    refine .setHeadState cause (fun _ => mem) fun c _ => ⟨fun _ fault => ?_, fun lasts => ?_⟩
    · rw [repairs, bare c] at fault
      cases fault
    · rw [enumeration, none c] at lasts
      cases lasts
  unfold State.placeFound
  dsimp only
  split
  · exact (putRingRecord s h _).trans (.ite (enters _ _ _ rfl rfl) (enters _ _ _ rfl rfl))
  · exact .ite (enters s _ _ rfl rfl) (enters s _ _ rfl rfl)

/-- Every head placed, the enumeration over (R130). -/
theorem endEnumeration (foundA foundB : Nat) (lasts : s.ring.enumeration.isSome = true) :
    s.KeepsBounds C (s.endEnumeration foundA foundB) := by
  unfold State.endEnumeration
  extract_lets src t
  have ended : s.KeepsBounds (C ∧ s.FaultLaw) t :=
    ⟨id, id, id, fun _ law => { law with enumeration := nofun }⟩
  have bare : C ∧ s.FaultLaw → faultHeads t.repairs = [] := fun ⟨_, law⟩ => (law.enumeration lasts).bare
  refine .of_law ((ended.trans (.foldl_while
    (P := fun u => u.repairs = t.repairs ∧ u.ring.enumeration = t.ring.enumeration) ⟨rfl, rfl⟩ (fun u g here => ?_)
    fun u here g mem => ?_)).trans (.post _ _ _ _))
  · obtain ⟨repairs, enumeration⟩ := u.placeFound_leaves foundA foundB g
    exact ⟨repairs.trans here.1, enumeration.trans here.2⟩
  · refine .placeFound foundA foundB mem (fun c => ?_) fun _ => ?_
    · rw [here.1]
      exact bare c
    · rw [here.2]
      rfl

theorem assignAnswered (s : State) : s.KeepsBounds C s.assignAnswered := by
  unfold State.assignAnswered
  split
  · exact .refl s
  · next e lasts =>
    have lasts : s.ring.enumeration.isSome = true := by rw [lasts]; rfl
    dsimp only
    split
    · exact .refl s
    · exact .ite (.endEnumeration _ _ lasts) (.setEnumeration lasts)
    · exact .ite (.endEnumeration _ _ lasts) (.setEnumeration lasts)

theorem assignMissed (s : State) : s.KeepsBounds C s.assignMissed := by
  unfold State.assignMissed
  split
  · exact .refl s
  · next e lasts =>
    have lasts : s.ring.enumeration.isSome = true := by rw [lasts]; rfl
    split
    · exact .refl s
    · exact .setEnumeration lasts
    · exact .endEnumeration _ _ lasts

theorem broadcastSent (s : State) : s.KeepsBounds C s.broadcastSent := by
  unfold State.broadcastSent
  split
  · exact .refl s
  · extract_lets src u
    have landed : s.KeepsBounds C u := .landed s
    refine .ite (.refl s) (landed.trans (.ite (.refl u) (.ite ?_ (.ite (.same rfl rfl rfl) (.refl u)))))
    split
    · next e lasts => exact .setEnumeration (by rw [lasts]; rfl)
    · exact .refl u

/-- RING_START (R128): every head ABSENT, no entry and no request left, and the outcome in flight discarded. -/
theorem takeRingStart (idle : s.run.state = .idle) : s.KeepsBounds C s.takeRingStart := by
  unfold State.takeRingStart
  extract_lets ring
  obtain ⟨z, absent, gone⟩ := (s.withRing ring).absentHeads_eq
  rw [absent]
  refine ⟨id, id, fun _ => ⟨.nil, Nat.zero_le _⟩, fun _ law => ?_⟩
  have flight : ∀ f, ring.flight = some f →
      ∃ g, s.ring.flight = some g ∧ f.request = g.request ∧ f.discarded = true := by
    intro f flying
    obtain ⟨g, flew, rfl⟩ := Option.map_eq_some_iff.mp flying
    exact ⟨g, flew, rfl, rfl⟩
  have bare : (faultHeads []).Subperm (faultHeads ((s.withRing ring).withHeads z).repairs) := List.nil_subperm
  have cleared : (((s.withRing ring).withHeads z).withRepairs []).FaultLaw := {
    single := List.nodup_nil
    heads := fun _ mem => absurd mem List.not_mem_nil
    faulted := fun _ _ mem => absurd mem List.not_mem_nil
    main := law.main
    walk := law.walk
    requests := fun _ mem => absurd mem List.not_mem_nil
    flight := fun f flying other => by
      obtain ⟨g, flew, request, -⟩ := flight f flying
      rw [request]
      exact law.flight g flew (request ▸ other)
    enumeration := fun _ => ⟨rfl, idle, rfl, fun h mem => State.not_present_iff.mpr (.inl (gone h mem)), fun f flying => by
      obtain ⟨g, -, -, discarded⟩ := flight f flying
      exact .inr discarded⟩ }
  exact cleared.of_bench rfl

theorem startRing (s : State) : s.KeepsBounds C s.startRing := by
  unfold State.startRing
  split
  · exact .refuse s _ _
  · next idle => exact .ite (.refuse s _ _) (trans (.takeRingStart (not_not.mp idle)) (.reply _ _ _ _))

/-! ### Answers (R122, R135 to R143) -/

theorem watchBobbin (s : State) (h : Nat) (w : RingWord) : s.KeepsBounds C (s.watchBobbin h w) := by
  have put : ∀ r : HeadRecord, r.state = (s.head h).state → s.KeepsBounds C (s.putHead h r) := fun _ => .putHead_same
  exact .ite (.after (.post _ _ _ _) (put _ rfl)) (put _ rfl)

theorem watchMotion (s : State) (h : Nat) (w : RingWord) : s.KeepsBounds C (s.watchMotion h w) :=
  .ite (.putHead_same rfl) (.refl s)

theorem watchTension (w : RingWord) (mem : C → h ∈ headNumbers) : s.KeepsBounds C (s.watchTension h w).1 := by
  unfold State.watchTension
  split
  · next active =>
    split
    · dsimp only
      have counted : s.KeepsBounds C (s.putHead h { s.head h with tension := (s.head h).tension + 1 }) := .putHead_same rfl
      split
      · refine counted.trans (.faultAction .tension mem ?_)
        rw [State.head_putHead, if_pos rfl]
        exact active
      · exact counted
    · exact .putHead_same rfl
  · exact .refl s

theorem watchSwitch (w : RingWord) (mem : C → h ∈ headNumbers) : s.KeepsBounds C (s.watchSwitch h w) := by
  unfold State.watchSwitch
  refine .ite (.refl s) ?_
  split
  · next active => exact (changeHead_free _ mem (by rw [active]; exact HeadState.free_active)).trans (.post _ _ _ _)
  · next held =>
    exact .ite (.post s _ _ _)
      ((returnHead_free mem (by rw [held]; exact HeadState.free_heldOperator)).trans (.post _ _ _ _))
  · exact .post s _ _ _

theorem superviseAnswer (w : RingWord) (mem : C → h ∈ headNumbers) (mode : C → s.operationsMatch) :
    s.KeepsBounds C (s.superviseAnswer h w) := by
  unfold State.superviseAnswer
  have told : s.KeepsBounds C (s.reportNeedle h w) := .putHead_same rfl
  have matched : C → (s.reportNeedle h w).operationsMatch := fun c =>
    (State.Steady.of_footing (s.footing_reportNeedle h w)).2.operationsMatch (mode c)
  refine told.trans ?_
  generalize s.reportNeedle h w = a at matched
  refine .ite (.loseAndSettle .board _ mem matched) ?_
  have watched := ((watchBobbin a h w).trans (.watchMotion _ h w)).trans (.watchTension w mem)
  split
  next b faulted e =>
    rw [e] at watched
    have switched := watched.trans (.watchSwitch w mem)
    exact .ite (switched.trans (.applyPolicy _)) switched

/-- Where the search for a FAULT entry of a head finds none. -/
theorem not_mem_faultHeads {l : List RepairEntry}
    (none : ∀ e, (l.find? fun e => decide (e.head = h) && e.isFault) = some e → ∀ cause, e.kind ≠ .fault cause) :
    h ∉ faultHeads l := by
  intro mem
  obtain ⟨e, listed, fault, head⟩ := mem_faultHeads.mp mem
  cases found : l.find? fun e => decide (e.head = h) && e.isFault with
  | none => exact absurd (by rw [head, fault]; simp) (List.find?_eq_none.mp found e listed)
  | some x =>
    have isFault : x.isFault = true := (Bool.and_eq_true .. ▸ List.find?_some found).2
    cases kind : x.kind with
    | fault cause => exact none x found cause kind
    | skip => simp [RepairEntry.isFault, kind] at isFault

/-- The head of a recovery POLL comes back to the state its entries ask for, when no enumeration lasts (R143). -/
theorem recoveryAnswered (w : RingWord) (mem : C → h ∈ headNumbers) (none : C → s.ring.enumeration.isSome = false) :
    s.KeepsBounds C (s.recoveryAnswered h w) := by
  unfold State.recoveryAnswered
  extract_lets src a
  have told : s.KeepsBounds C a := (putRingRecord s h _).trans (.putHead_same rfl)
  have quiet : C → a.ring.enumeration.isSome = true → False := fun c lasts => by
    rw [show a.ring.enumeration = s.ring.enumeration from rfl, none c] at lasts
    cases lasts
  refine told.trans (.ite ((setHeadState _ mem fun _ _ => a.admits_lost h).trans (.post _ _ _ _)) ?_)
  split
  · exact .setHeadState _ mem fun c _ => ⟨fun _ _ => .inl rfl, fun lasts => (quiet c lasts).elim⟩
  · next other =>
    have free : h ∉ faultHeads a.repairs := by
      refine not_mem_faultHeads fun e found cause kind => ?_
      obtain ⟨head, _, fromIndex, toBlock, toIndex, deferred, sewing⟩ := e
      cases kind
      exact other _ _ _ _ _ _ _ found
    have admits : ∀ st, C → a.FaultLaw → a.Admits h st := fun st c _ =>
      ⟨fun _ fault => absurd fault free, fun lasts => (quiet c lasts).elim⟩
    exact .ite (.setHeadState _ mem (admits _)) (.ite (.setHeadState _ mem (admits _))
      (.returnHead mem fun c law _ => admits _ c law))

theorem unicastAnswered (k : Transaction) (w : RingWord) (mem : C → k.request.head ∈ headNumbers)
    (none : C → s.ring.enumeration.isSome = false) (mode : C → s.operationsMatch) :
    s.KeepsBounds C (s.unicastAnswered k w) := by
  unfold State.unicastAnswered
  extract_lets h src a
  have put : s.KeepsBounds C (s.putRingRecord h { s.ringRecord h with misses := 0 }) := .putRingRecord s h _
  have steady := State.Steady.of_footing (s.footing_putRingRecord h { s.ringRecord h with misses := 0 })
  have confirmed : s.KeepsBounds C a := put.trans (.confirmNeedle k w fun c => steady.2.operationsMatch (mode c))
  have matched : C → a.operationsMatch := fun c =>
    (State.Preserves.confirmNeedle _ k w).mode (steady.2.operationsMatch (mode c))
  exact .ite (.refl s) (.ite (.recoveryAnswered w mem none)
    (.ite confirmed (confirmed.trans (.superviseAnswer w mem matched))))

theorem ringAnswer (s : State) (e : RingEnd) (w : RingWord) : s.KeepsBounds s.operationsMatch (s.ringAnswer e w) := by
  unfold State.ringAnswer
  split
  · exact .refl s
  · next k flying =>
    split
    · exact .refl s
    · next good =>
      extract_lets src u
      have landed : s.KeepsBounds (s.operationsMatch ∧ s.FaultLaw) u := .landed s
      refine .of_law (landed.trans ?_)
      split
      · exact .refl u
      · next discarded =>
        split
        · exact .assignAnswered u
        · next assign =>
          obtain ⟨mem, none⟩ := State.unicast_known flying (fun b => good (.inl b)) assign discarded
          exact .unicastAnswered k w (fun c => mem c.2) (fun c => none c.2) fun c => c.1

/-! ### Misses (R123 to R125) -/

theorem requeueMissed (k : Transaction) (known : C → k.request.addressed) : s.KeepsBounds C (s.requeueMissed k) := by
  refine .ite (.refl s) (.ite (.refl s) ⟨id, id, id, fun c law => law.withRing rfl rfl (fun r mem => ?_) law.flight
    fun lasts => (law.enumeration lasts).flight⟩)
  rcases List.mem_append.mp mem with mem | mem
  · exact law.requests r mem
  · rw [List.mem_singleton.mp mem]
    exact known c

theorem thirdMiss (mem : C → h ∈ headNumbers) (mode : C → s.operationsMatch) : s.KeepsBounds C (s.thirdMiss h) := by
  unfold State.thirdMiss
  extract_lets r wasActive
  have put : ∀ r, s.KeepsBounds C (s.putRingRecord h r) := .putRingRecord s h
  exact .ite ((put _).trans (.post _ _ _ _)) ((put _).trans (.loseAndSettle .ring _ mem fun c =>
    (State.Steady.of_footing (s.footing_putRingRecord h _)).2.operationsMatch (mode c)))

theorem unicastMissed (k : Transaction) (mem : C → k.request.head ∈ headNumbers) (mode : C → s.operationsMatch) :
    s.KeepsBounds C (s.unicastMissed k) := by
  unfold State.unicastMissed
  extract_lets h u r
  have queued : s.KeepsBounds C u := .requeueMissed k fun c => .inl (mem c)
  exact .ite (.refl s) (.ite (.recoveryMiss s h) (.ite (queued.trans (.thirdMiss mem fun c =>
    (State.Steady.of_footing (s.footing_requeueMissed k)).2.operationsMatch (mode c))) (queued.trans (.putRingRecord _ _ _))))

theorem ringTimeout (s : State) : s.KeepsBounds s.operationsMatch s.ringTimeout := by
  unfold State.ringTimeout
  split
  · exact .refl s
  · next k flying =>
    split
    · exact .refl s
    · next unicast =>
      extract_lets src u
      have landed : s.KeepsBounds (s.operationsMatch ∧ s.FaultLaw) u := .landed s
      refine .of_law (landed.trans ?_)
      split
      · exact .refl u
      · next discarded =>
        split
        · exact .assignMissed u
        · next assign =>
          obtain ⟨mem, -⟩ := State.unicast_known flying unicast assign discarded
          exact .unicastMissed k (fun c => mem c.2) fun c => c.1

/-! ### The commands on heads (R116, R142, R143) -/

/-- A head number that the test of a command lets pass. -/
theorem headNumber {p : Prop} (passed : ¬ (h = 0 ∨ 24 < h ∨ p)) : h ∈ headNumbers := by
  have bounds : h ≠ 0 ∧ ¬ 24 < h := ⟨fun zero => passed (.inl zero), fun high => passed (.inr (.inl high))⟩
  refine List.mem_map.mpr ⟨h - 1, List.mem_range.mpr ?_, ?_⟩
  · show h - 1 < 24
    omega
  · omega

theorem setInhibit (s : State) (h : Nat) (needles : BitVec 16) : s.KeepsBounds C (s.setInhibit h needles) := by
  unfold State.setInhibit
  split
  · exact .refuse s _ _
  · next passed =>
    extract_lets t u
    have row : s.KeepsBounds C t := .same rfl rfl rfl
    refine row.trans (trans ?_ (.reply u _ _ _))
    unfold u
    split
    · next bars =>
      have barred : t.KeepsBounds C (t.changeHead h .heldNeedle none) :=
        .changeHead_free none (fun _ => headNumber passed) (by rw [bars.2]; exact HeadState.free_active)
      refine barred.trans ?_
      unfold State.skipForInhibit
      split
      case h_5 =>
        refine ⟨id, id, id, fun _ law => law.withWalk fun v some => ?_⟩
        obtain ⟨w, walking, rfl⟩ := Option.map_eq_some_iff.mp some
        exact law.walk w walking
      case h_6 => exact .refl _
      all_goals exact .skipOrPost _ h
    · exact .refl t

theorem headOff (s : State) (h : Nat) : s.KeepsBounds C (s.headOff h) := by
  unfold State.headOff
  split
  · exact .refuse s _ _
  · next passed =>
    split
    · exact .refuse s _ _
    · next active =>
      have mem : h ∈ headNumbers := headNumber (p := False) (by simpa using passed)
      exact (changeHead_free none (fun _ => mem) (by rw [not_not.mp active]; exact HeadState.free_active)).trans
        (.reply _ _ _ _)

/-- HEAD_ON of a head that is neither ABSENT nor LOST: its FAULT entry goes before it becomes ACTIVE (R143). -/
theorem bringBack (mem : h ∈ headNumbers) (present : s.present h = true) : s.KeepsBounds C (s.bringBack h) := by
  obtain ⟨there, found⟩ := State.present_iff.mp present
  unfold State.bringBack
  split
  · next held =>
    extract_lets t u
    have dropped : s.KeepsBounds C t := .dropFault s h
    have head : t.head h = s.head h := s.setRepairs_head _ h
    have free : h ∉ faultHeads t.repairs := by
      intro fault
      obtain ⟨e, listed, isFault, same⟩ := mem_faultHeads.mp fault
      rw [show t.repairs = sortEntries _ from s.setRepairs_repairs _, mem_sortEntries, List.mem_filter] at listed
      simp [same, isFault] at listed
    have returned : s.KeepsBounds C u := dropped.trans (.returnHead (fun _ => mem) fun _ law _ =>
      ⟨fun _ fault => absurd fault free, fun lasts => by
        rw [law.noEnumeration_of_present mem (State.present_iff.mpr (by rw [head]; exact ⟨there, found⟩))] at lasts
        cases lasts⟩)
    exact .ite returned (returned.trans (.checkPassEmptied u))
  · next other => exact .returnHead_free (fun _ => mem) ⟨there, other, found⟩

theorem headOn (s : State) (h : Nat) : s.KeepsBounds C (s.headOn h) := by
  unfold State.headOn
  split
  · exact .refuse s _ _
  · next passed =>
    have mem : h ∈ headNumbers := headNumber (p := False) (by simpa using passed)
    refine .ite (.refuse s _ _) ?_
    split
    · exact .refuse s _ _
    · exact .reply s _ _ _
    · exact .refuse s _ _
    · exact .refuse s _ _
    · exact (offer fun _ => .inl mem).trans (.reply _ _ _ _)
    · next absent _ _ _ lost =>
      exact .ite (.refuse s _ _) ((bringBack mem (State.present_iff.mpr ⟨absent, lost⟩)).trans (.reply _ _ _ _))

theorem setConstants (s : State) (c : ConstantsFrame) : s.KeepsBounds C (s.setConstants c) := by
  have zeroed : ∀ t : State, t.KeepsBounds C t.zeroCounts := .foldl headNumbers fun t h _ => .putHead_same rfl
  refine .ite (.refuse s _ _) (.ite (.refuse s _ _) (.ite (.refuse s _ _) ?_))
  exact after (.reply _ _ _ _) (after (zeroed _) (.same rfl rfl rfl))

end State.KeepsBounds

end Sys2Proof.Machine
end

section
/-! PROOF. O55: the bounds of the queues along ARM, STOP and DISARM, along every command, and along every step. -/

namespace Sys2Proof.Machine

open Sys2Proof

variable {C : Prop} {s t u : State}

/-- The law is of the part's own state: RESET leaves it with nothing to say (R173). -/
theorem State.faultLaw_reset : State.reset.FaultLaw where
  single := List.nodup_nil
  heads _ mem := absurd mem List.not_mem_nil
  faulted _ _ mem := absurd mem List.not_mem_nil
  main _ := rfl
  walk := nofun
  requests _ mem := absurd mem List.not_mem_nil
  flight := nofun
  enumeration := nofun

namespace State.KeepsBounds

/-! ### ARM and its trace (R55, R60 to R63) -/

/-- ARM out of IDLE, outside an enumeration: the queue as after reset, and a MAIN pass. -/
theorem takeArm (idle : s.run.state = .idle) (quiet : s.ring.state ≠ .enumerating) (slot : Nat) (tr : Transform)
    (now : Point) : s.KeepsBounds s.operationsMatch (s.takeArm slot tr now) := by
  obtain ⟨a, e⟩ := s.takeArm_eq slot tr now
  rw [e]
  refine ⟨id, fun _ => ⟨Nat.zero_le _, Nat.zero_le _⟩, id, fun mode law => ?_⟩
  have main : s.run.pass = .main := law.main (.inl idle)
  obtain ⟨-, walk, -, -⟩ := mode.rests (by rw [idle]; rfl)
  have armed : (s.withRun { s.run with state := .arming, pass := .main }).FaultLaw := { law with
    faulted := fun _ => law.faulted main
    main := fun _ => rfl
    walk := fun w walking => by
      rw [show s.walk = some w from walking] at walk
      cases walk
    enumeration := fun lasts => absurd (law.enumeration lasts).ring quiet }
  exact armed.of_bench rfl

theorem armRun (s : State) (slot sx sy angle : Nat) (mirror : Bool) (ox oy nowX nowY : Nat) :
    s.KeepsBounds s.operationsMatch (s.armRun slot sx sy angle mirror ox oy nowX nowY) := by
  unfold State.armRun
  refine .ite (.refuse s _ _) ?_
  split
  · exact .refuse s _ _
  · next idle =>
    split
    · exact .refuse s _ _
    · next quiet =>
      exact .ite (.refuse s _ _) (.ite (.refuse s _ _) (.ite (.refuse s _ _) (.ite (.refuse s _ _)
        ((takeArm (not_not.mp idle) quiet _ _ _).trans (.reply _ _ _ _)))))

theorem traceGone (s : State) : s.KeepsBounds C (s.withTrace none) := .same rfl rfl rfl

/-- The slot released and the run back in IDLE, out of ARMING. -/
theorem releaseToIdle (arming : C → s.run.state = .arming) : s.KeepsBounds C (s.releaseSlot.setRunState .idle) := by
  obtain ⟨q, e⟩ := s.releaseSlot_eq
  refine (releaseSlot s).trans (.setRunState (fun _ _ => rfl) fun c _ => ?_)
  rw [e]
  exact .inr (arming c)

theorem passTrace (arming : C → s.run.state = .arming) : s.KeepsBounds C s.passTrace := by
  have armed : (s.withTrace none).KeepsBounds C ((s.withTrace none).setRunState .armed) :=
    .setRunState_live (fun c => by rw [State.withTrace_run, arming c]; nofun) RunState.online_armed
  exact ((traceGone s).trans armed).trans (.post _ _ _ _)

theorem failTraceField (arming : C → s.run.state = .arming) (index : Nat) (goal : Point) :
    s.KeepsBounds C (s.failTraceField index goal) := by
  have released : (s.withTrace none).KeepsBounds C ((s.withTrace none).releaseSlot.setRunState .idle) := .releaseToIdle arming
  exact ((traceGone s).trans released).trans (.postTarget _ _ _ _ _)

theorem failTraceMemory (arming : C → s.run.state = .arming) (first : Nat) :
    s.KeepsBounds C (s.failTraceMemory first) := by
  unfold State.failTraceMemory
  extract_lets slot t
  have faulted : s.KeepsBounds C t := (recordFault s _ _ _ _ _).trans (.damageSlot _ _)
  have run : (t.withTrace none).run = s.run := by
    obtain ⟨f, fault, -⟩ := s.recordFault_eq .trace (some .arm) slot first .memory
    obtain ⟨q, damaged⟩ := (s.withFaultRecord f).damageSlot_eq slot
    rw [show t = (s.withFaultRecord f).withSlots q by rw [← damaged, ← fault]]
    rfl
  have released : (t.withTrace none).KeepsBounds C ((t.withTrace none).releaseSlot.setRunState .idle) :=
    .releaseToIdle (run ▸ arming)
  exact (faulted.trans ((traceGone t).trans released)).trans (.post _ _ _ _)

theorem traceReadDone (s : State) : s.KeepsBounds s.operationsMatch s.traceReadDone := by
  unfold State.traceReadDone
  split
  · next read _ _ _ =>
    have done : s.KeepsBounds s.operationsMatch (s.readChunk read.chunk).1 := .readChunk s _
    have steady := State.Steady.readChunk s read.chunk
    split
    next t result e =>
      rw [e] at done steady
      have ended := done.trans (.endAccess t .trace)
      have mode := (steady.trans (.of_footing (t.footing_endAccess .trace))).2.operationsMatch
      dsimp only
      generalize t.endAccess .trace = u at ended mode
      refine ended.trans ?_
      split
      · next tr tracing _ =>
        have arming : s.operationsMatch → u.run.state = .arming := fun law => ((mode law).of_trace (by rw [tracing]; rfl)).1
        unfold State.traceChunk
        split
        · exact .failTraceMemory arming _
        · split
          · exact .failTraceField arming _ _
          · exact .ite (.passTrace arming) (.same rfl rfl rfl)
      · exact .refl u
  · exact .refl s

/-! ### STOP and DISARM (R63, R65, R73) -/

theorem abortTrace (arming : s.run.state = .arming) : s.KeepsBounds C s.abortTrace := by
  obtain ⟨a, drops⟩ := (s.withTrace none).dropRead_eq .trace
  have dropped : s.KeepsBounds C ((s.withTrace none).dropRead .trace) := (traceGone s).trans (.dropRead _ _)
  refine dropped.trans (.releaseToIdle fun _ => ?_)
  rw [drops]
  exact arming

theorem stopRun (s : State) (port : Port) : s.KeepsBounds C (s.stopRun port) := by
  unfold State.stopRun
  split
  · next running =>
    have stopping : s.KeepsBounds C (s.setRunState .stopping) :=
      .setRunState_live (fun _ => by rw [running]; nofun) (by simp [RunState.offline])
    exact stopping.trans (.setStopReason _ _)
  · exact .same rfl rfl rfl
  · next state =>
    split
    · next w walking =>
      exact .of_law (.endWalk w _ (fun _ => by rw [state]; nofun) fun c => c.2.walk w walking)
    · exact .refl s
  · next arming => exact .abortTrace arming
  · exact .refl s

/-- DISARM's last steps, with no entry and no walk left. -/
theorem disarmed (bare : s.repairs = []) (live : s.run.state ≠ .idle) (still : s.run.state ≠ .running)
    (rests : C → s.walk = none) : s.KeepsBounds C s.disarmed := by
  obtain ⟨q, e, -⟩ := s.disarmed_eq still
  rw [e]
  refine ⟨id, id, id, fun c law => ?_⟩
  have none : ∀ h, h ∉ faultHeads s.repairs := fun h mem => by
    rw [bare] at mem
    cases mem
  have idle : (s.withRun { s.run with state := .idle, pass := .main }).FaultLaw := { law with
    faulted := fun _ h mem => absurd mem (none h)
    main := fun _ => rfl
    walk := fun w walking => by
      rw [State.withRun_walk, rests c] at walking
      cases walking
    enumeration := fun lasts => absurd ((law.noEnumeration live).symm.trans lasts) nofun }
  exact idle.of_bench rfl

theorem takeDisarm (live : s.run.state ≠ .idle) (still : s.run.state ≠ .running) (rests : C → s.walk = none) :
    s.KeepsBounds C s.takeDisarm := by
  obtain ⟨a, e⟩ := s.unloaded_eq
  have repairs : s.unloaded.repairs = [] := by rw [e]
  have unloads : s.KeepsBounds C s.unloaded := by
    unfold State.unloaded
    extract_lets u
    have untraced : s.KeepsBounds C u := .ite ((traceGone s).trans (.dropRead _ _)) (.refl s)
    have emptied : u.KeepsBounds C ((u.withQueue { u.queue with issued := [], prepared := [] }).withSeq
        { u.seq with haltFlag := false, split := none, halt := none, approach := false }) :=
      .tokensLeave rfl rfl (Nat.zero_le _) (Nat.zero_le _)
    exact (untraced.trans emptied).trans (.thinRepairs (.nil _))
  have heads := State.OnlyHeads.returnHeads s.unloaded
  have kept : s.unloaded.returnHeads.run.state = s.run.state ∧ s.unloaded.returnHeads.walk = s.walk := by
    rw [heads.eq, e]
    exact ⟨rfl, rfl⟩
  rw [State.takeDisarm_steps]
  refine (unloads.trans (.returnHeads repairs)).trans (.disarmed ?_ ?_ ?_ fun c => kept.2.trans (rests c))
  · rw [State.repairs_returnHeads, repairs]
  · rw [kept.1]
    exact live
  · rw [kept.1]
    exact still

theorem disarmRun (s : State) : s.KeepsBounds s.operationsMatch s.disarmRun := by
  rw [State.disarmRun_eq]
  split
  · exact .refuse s _ _
  · next taken =>
    obtain ⟨live, still, -, -, walking⟩ : s.run.state ≠ .idle ∧ s.run.state ≠ .running ∧ s.run.state ≠ .stopping ∧
        s.run.state ≠ .changing ∧ s.run.state ≠ .walking := by simpa only [not_or] using taken
    refine trans (.takeDisarm live still fun mode => ?_) (.reply _ _ _ _)
    rw [← Option.not_isSome_iff_eq_none]
    exact fun walks => walking (mode.2.1.mp walks)

/-! ### Frames, events and commands -/

/-- The law called for where it is known. -/
theorem when {D : Prop} (known : C → D) (h : s.KeepsBounds D t) : s.KeepsBounds C t :=
  ⟨h.events, h.queue, h.ordered, fun c => h.law (known c)⟩

/-- A frame that ends on a port keeps what its body keeps. -/
theorem onFrame {port : Port} {body : State → State} (keeps : ∀ u : State, u.KeepsBounds u.operationsMatch (body u)) :
    s.KeepsBounds s.operationsMatch (s.onFrame port body) := by
  unfold State.onFrame
  split
  · exact (framedOn s port).trans ((keeps _).when (State.Steady.of_footing (by simp)).2.operationsMatch)
  · exact .putPort s _ _

theorem onEvent {body : State → State} (keeps : s.KeepsBounds s.operationsMatch (body s)) :
    s.KeepsBounds s.operationsMatch (s.onEvent body) := .ite (.refl s) keeps

/-- RESET (R173). -/
theorem reset (bench : t.bench = State.reset.bench) (queue : t.queue = .reset) (events : t.events = []) :
    s.KeepsBounds C t := by
  have kept : State.reset.KeepsBounds C t := .same bench queue events
  exact ⟨fun _ => kept.events (Nat.zero_le _), fun _ => kept.queue ⟨Nat.zero_le _, Nat.zero_le _⟩,
    fun _ => kept.ordered ⟨.nil, Nat.zero_le _⟩, fun c _ => kept.law c State.faultLaw_reset⟩

/-- Every command keeps the bounds. -/
theorem exec {c : Instr} (h : exec c s = .next t) : s.KeepsBounds s.operationsMatch t := by
  cases c <;> cases h
  case openDesign slot len => exact .onFrame fun u => .openDesign u slot len
  case writeRecords slot index records => exact .onFrame fun u => .writeRecords u slot index records
  case readRecords slot index count => exact .onFrame fun u => .readRecords u slot index count
  case portStoreAccessDone => exact .onEvent (.portAccessDone s)
  case requestPauseExpiry r => exact .onEvent (.endPause s r)
  case setColours slot first entries => exact .onFrame fun u => .setColours u slot first entries
  case readColours slot first count =>
    exact .onFrame fun u => .ite (.refuse u _ _) (.ite (.refuse u _ _) (.reply u _ _ _))
  case readSlot slot => exact .onFrame fun u => .ite (.refuse u _ _) (.reply u _ _ _)
  case closeDesign slot => exact .onFrame fun u => .closeDesign u slot
  case closeScanReadDone => exact .onEvent (.closeScanReadDone s)
  case delete slot => exact .onFrame fun u => .deleteSlot u slot
  case keep slot on => exact .onFrame fun u => .keepSlot u slot on
  case clearFaultRecord => exact .onFrame fun u => .after (.reply _ _ _ _) (.same rfl rfl rfl)
  case arm => exact .onFrame fun u => .armRun u _ _ _ _ _ _ _ _ _
  case traceReadDone => exact .onEvent (.traceReadDone s)
  case start => exact .onFrame fun u => .startRun u
  case stop port => exact .onFrame fun u => (stopRun u port).trans (.reply _ _ _ _)
  case disarm => exact .onFrame fun u => .disarmRun u
  case setSpeed value => exact .onFrame fun u => .after (.reply _ _ _ _) (.same rfl rfl rfl)
  case readRun => exact .onFrame fun u => .reply u _ _ _
  case prepareTurn => exact .onEvent (.prepareOne s)
  case prepareReadDone => exact .onEvent (.prepareReadDone s)
  case fetchMoves max => exact .onFrame fun u => .fetchMoves u max
  case done seq => exact .onFrame fun u => .doneReport u seq
  case stopped form seq => exact .onFrame fun u => .stoppedReport u form seq
  case walk mode n => exact .onFrame fun u => .walkRun u mode n
  case walkReadDone => exact .onEvent (.walkReadDone s)
  case repair => exact .onFrame fun u => .repairRun u
  case readRepairs first count => exact .onFrame fun u => .ite (.refuse u _ _) (.reply u _ _ _)
  case broadcastSent => exact .onEvent (.broadcastSent s)
  case changeDeadline => exact .onEvent (.changeDeadline s)
  case setInhibit head needles => exact .onFrame fun u => .setInhibit u head needles
  case ringTransactionStart => exact .onEvent (.ringTransactionStart s)
  case ringAnswer e w => exact .onEvent (.ringAnswer s e w)
  case ringTimeout => exact .onEvent (.ringTimeout s)
  case ringStart => exact .onFrame fun u => .startRing u
  case headOff head => exact .onFrame fun u => .headOff u head
  case headOn head => exact .onFrame fun u => .headOn u head
  case readHeads first count => exact .onFrame fun u => .ite (.refuse u _ _) (.reply u _ _ _)
  case readEvents n => exact .onFrame fun u => .readEvents u n
  case setClass kind log attend => exact .onFrame fun u => .setClass u kind log attend
  case setTime value unit => exact .onFrame fun u => .setTime u value unit
  case timeTagTick => exact .onEvent (.timeTagTick s)
  case setConstants record => exact .onFrame fun u => .setConstants u record
  case readConstants => exact .onFrame fun u => .reply u _ _ _
  case readStatus port => exact .onFrame fun u => .reply u _ _ _
  case readPortErrors port => exact .onFrame fun u => .after (.reply _ _ _ _) (.putPort u _ _)
  case nop port => exact .onFrame fun u => .reply u _ _ _
  case identify port => exact .onFrame fun u => .reply u _ _ _
  case frameError port error => exact .onFrame fun u => .after (.reply _ _ _ _) (.putPort u _ _)
  case reset => exact .reset rfl rfl rfl
  case frameAcceptReady => exact .ite (.same rfl rfl rfl) (.refl s)
  case storeBitChange chunk bits => exact .storeBitChange s chunk bits
  case chipSelectAssert port start => exact .chipSelect s port _ _
  case resetRelease => exact .ite (.same rfl rfl rfl) (.refl s)

/-- Every step keeps the bounds: it idles, or carries out a command on the state with the rest of the queue. -/
theorem step (h : step s = .next t) : s.KeepsBounds s.operationsMatch t := by
  unfold Machine.step at h
  split at h
  · cases h
    exact .refl s
  · next c rest _ =>
    have taken : s.KeepsBounds s.operationsMatch (s.withPending rest) := .same rfl rfl rfl
    exact taken.trans (exec h)

end State.KeepsBounds

/-- Settles O55: every command moves tokens, events and entries only where there is room, and adds a FAULT entry only of a
head that has none. -/
theorem queuesKeepTheirBounds : Obligations.QueuesKeepTheirBounds := by
  refine ⟨fun s t steps => ?_, fun s ordered single => (State.faultsSingle_iff.mp single).repairs_length ordered⟩
  have keeps := State.KeepsBounds.step steps
  refine ⟨keeps.events, keeps.queue, keeps.ordered, fun mode single => ?_⟩
  exact State.faultsSingle_iff.mpr (keeps.law mode (State.faultsSingle_iff.mp single))

end Sys2Proof.Machine
end

section
/-! PROOF. O32: FETCH_MOVES issues the oldest prepared tokens and opens a starvation episode (R82, R83). -/

namespace Sys2Proof.Machine

open Sys2Proof

variable {s : State} {max : Nat}

/-! ### The starvation episode (R83) -/

theorem State.starves_iff :
    s.starves = true ↔ s.run.state = .running ∧ s.queue.prepared = [] ∧ s.seq.haltFlag = false := by
  simp only [State.starves, Bool.and_eq_true, decide_eq_true_eq, Bool.not_eq_true', and_assoc]

/-- With nothing prepared no token is issued. -/
theorem State.issueCount_of_starves (starves : s.starves = true) : s.issueCount max = 0 := by
  obtain ⟨-, none, -⟩ := State.starves_iff.mp starves
  simp only [State.issueCount, none, List.length_nil, Nat.zero_min, Nat.min_zero, ite_self]

theorem State.openStarvation_eq (s : State) : ∃ v, s.openStarvation =
    (s.withQueue { s.queue with starved := s.starves || s.queue.starved }).withEvents v := by
  unfold State.openStarvation
  cases starves : s.starves with
  | false => exact ⟨s.events, rfl⟩
  | true =>
    cases starved : s.queue.starved with
    | false => exact State.post_eq _ _ _ _
    | true =>
      have same : { s.queue with starved := true } = s.queue := by rw [← starved]
      rw [Bool.true_or, same]
      exact ⟨s.events, rfl⟩

/-- Outside RUNNING, with tokens prepared or a HALT to come, or in an episode, no event is posted. -/
theorem State.openStarvation_events (quiet : s.starves = false ∨ s.queue.starved = true) :
    s.openStarvation.events = s.events := by
  unfold State.openStarvation
  rcases quiet with quiet | lasts
  · rw [quiet]
    rfl
  · rw [lasts, Bool.not_true, Bool.and_false]
    rfl

/-- The one event of an episode that opens. -/
theorem State.openStarvation_posts (starves : s.starves = true) (opens : s.queue.starved = false)
    (log : (s.classOf 14).log = true) : ∃ e, s.openStarvation.events.getLast? = some e ∧
      e.kind = .queueStarved ∧ e.head = 0 ∧ e.param = BitVec.ofNat 32 (s.seq.cursor % 2 ^ 18) := by
  have posts : s.openStarvation =
      (s.withQueue { s.queue with starved := true }).post .queueStarved 0 (BitVec.ofNat 32 (s.seq.cursor % 2 ^ 18)) := by
    rw [State.openStarvation, starves, opens, indexParam_eq]
    rfl
  rw [posts]
  refine (State.posted_post _ _ _ _).getLast? ?_
  rw [State.post_classOf]
  exact log

/-! ### The tokens issued (R82) -/

theorem State.issueCount_le (s : State) (max : Nat) : s.issueCount max ≤ s.queue.prepared.length := by
  unfold State.issueCount
  split
  · exact (min_le_right _ _).trans (min_le_left _ _)
  · exact Nat.zero_le _

/-- What a FETCH_MOVES that is taken leaves before its reply. -/
theorem State.fetched_eq (s : State) (n : Nat) : s.openStarvation.issue n = { s with
    events := s.openStarvation.events,
    queue := { s.queue with
      issued := s.queue.issued ++ s.queue.prepared.take n, prepared := s.queue.prepared.drop n,
      starved := (s.starves || s.queue.starved) && decide (n = 0) } } := by
  obtain ⟨v, e⟩ := s.openStarvation_eq
  rw [e]
  rfl

theorem State.fetchMoves_taken (inRange : ¬ (max < 1 ∨ 8 < max)) : s.fetchMoves max =
    (s.openStarvation.issue (s.issueCount max)).reply .m .ok
      (BitVec.ofNat 8 (s.issueCount max) :: (s.queue.prepared.take (s.issueCount max)).flatMap tokenBytes) := by
  have length : (s.queue.prepared.take (s.issueCount max)).length = s.issueCount max :=
    List.length_take_of_le (s.issueCount_le max)
  have passed : ¬ (max = 0 ∨ 8 < max) := by omega
  simp only [State.fetchMoves, if_neg passed, length, beBytes_one]
  rfl

/-- Settles O32: the one test, then what the episode and the issue leave. -/
theorem fetchIssuesOldestTokens : Obligations.FetchIssuesOldestTokens := by
  refine ⟨⟨rfl, rfl⟩, fun s max takes => ⟨_, rfl, ?_⟩⟩
  split
  · next bad =>
    refine State.answered_onFrame (body := fun t => t.fetchMoves max) takes (if_pos ?_)
    omega
  · next inRange =>
    obtain ⟨ran, answers⟩ := State.repliedOn (body := fun t => t.fetchMoves max) takes
      (State.fetchMoves_taken inRange) (by rw [State.fetched_eq]; rfl)
    extract_lets n starves
    have counted : (s.framedOn .m).issueCount max = n := rfl
    rw [ran]
    rw [counted] at answers ⊢
    rw [State.fetched_eq] at answers ⊢
    have framed : (s.framedOn .m).starves = s.starves := rfl
    have events : (s.starves = false ∨ s.queue.starved = true) → (s.framedOn .m).openStarvation.events = s.events :=
      State.openStarvation_events (s := s.framedOn .m)
    have quiet : ¬ starves → s.starves = false := fun no => by
      rw [Bool.eq_false_iff]
      exact fun yes => no (State.starves_iff.mp yes)
    have none : starves → n = 0 := fun yes => State.issueCount_of_starves (State.starves_iff.mpr yes)
    refine ⟨answers, rfl, rfl, rfl, rfl, rfl, fun some => ⟨?_, ?_⟩, fun yes => ?_, fun no => events (.inl (quiet no)),
      fun lasts => events (.inr lasts), fun yes opens log => ?_⟩
    · exact (congrArg (_ && ·) (decide_eq_false some.ne')).trans (Bool.and_false _)
    · exact events (.inl (quiet fun yes => some.ne' (none yes)))
    · exact Bool.and_eq_true_iff.mpr ⟨by rw [framed, State.starves_iff.mpr yes, Bool.true_or], decide_eq_true (none yes)⟩
    · exact State.openStarvation_posts (s := s.framedOn .m) (State.starves_iff.mpr yes) opens log

end Sys2Proof.Machine
end

section
/-! PROOF SUPPORT. A DONE without a HALT through its frame (R84 to R86), and O33. -/

namespace Sys2Proof.Machine

open Sys2Proof

variable {s : State} {n : Nat} {k : Token} {before after done rest : List Token}

/-! ### The executed point after the completions of a report (R85) -/

/-- What a report leaves of the queue, the run record and the parts that it does not touch. -/
theorem State.completeReport_point (issued : s.queue.issued = done ++ rest) :
    ((s.completeReport done.length).queue = { s.queue with
      issued := rest, lastDone := (done.getLast?.map fun k => some k.seq).getD s.queue.lastDone } ∧
    (s.completeReport done.length).run = { s.run with
      frame := (done.getLast?.map (·.frameAfter)).getD s.run.frame,
      cursor := ((done.filter (·.lastOfRecord)).getLast?.map (·.index + 1)).getD s.run.cursor,
      design := ((done.filter (·.lastOfRecord)).getLast?.map (·.designAfter)).getD s.run.design,
      colourBlock := (done.foldl State.completed s).run.colourBlock, state := (s.completeReport done.length).run.state,
      stopReason := (s.completeReport done.length).run.stopReason,
      outstanding := (s.completeReport done.length).run.outstanding }) ∧
    (s.completeReport done.length).portM = s.portM ∧ (s.completeReport done.length).store = s.store ∧
    (s.completeReport done.length).slots = s.slots := by
  have left := (State.OnlyReport.completeReport issued).eq
  obtain ⟨b, completed⟩ := s.foldl_completed done
  rw [completed] at left ⊢
  have drop : s.queue.issued.drop done.length = rest := by rw [issued, List.drop_left]
  rw [drop] at left
  generalize s.completeReport done.length = c at left ⊢
  exact ⟨⟨(congrArg State.queue left).trans rfl, (congrArg State.run left).trans rfl⟩, (congrArg State.portM left).trans rfl,
    (congrArg State.store left).trans rfl, (congrArg State.slots left).trans rfl⟩

/-! ### DONE through its frame (R84) -/

/-- A DONE whose tokens hold no HALT does the completions and the handover alone. -/
theorem State.takeDone_plain (issued : s.queue.issued = done ++ rest) (plain : ∀ x ∈ done, x.kind ≠ .halt) :
    s.takeDone done.length = s.completeReport done.length := by
  rw [State.takeDone, State.take_issued issued, haltOf_none plain]

theorem State.doneReport_plain (issued : s.queue.issued = (before ++ [k]) ++ after) (named : k.seq = n)
    (first : ∀ x ∈ before, x.seq ≠ n) (plain : ∀ x ∈ before ++ [k], x.kind ≠ .halt) :
    s.doneReport n = (s.completeReport (before ++ [k]).length).reportReply (before ++ [k]).length := by
  simp only [State.doneReport, issued, issuedCount_first named first, State.takeDone_plain issued plain]

/-- A DONE without a HALT, through its frame and its reply. -/
theorem State.donePlain_onFrame (takes : s.takesFrame .m = true) (issued : s.queue.issued = (before ++ [k]) ++ after)
    (named : k.seq = n) (first : ∀ x ∈ before, x.seq ≠ n) (plain : ∀ x ∈ before ++ [k], x.kind ≠ .halt) :
    s.onFrame .m (fun t => t.doneReport n) =
      ((s.framedOn .m).completeReport (before ++ [k]).length).reportReply (before ++ [k]).length ∧
    s.answers (((s.framedOn .m).completeReport (before ++ [k]).length).reportReply (before ++ [k]).length) .m .ok
      (beBytes 1 (before ++ [k]).length ++
        beBytes 3 ((s.framedOn .m).completeReport (before ++ [k]).length).run.cursor) := by
  have framed : (s.framedOn .m).queue.issued = (before ++ [k]) ++ after := issued
  obtain ⟨-, port, -⟩ := State.completeReport_point framed
  exact State.repliedOn (body := fun t => t.doneReport n) takes (State.doneReport_plain framed named first plain) port

/-! ### O33 -/

/-- Settles O33: the point that the completions leave, through the frame and its reply. -/
theorem doneCompletesByCheckpoints : Obligations.DoneCompletesByCheckpoints := by
  intro s n takes
  refine ⟨fun none => ⟨_, rfl, ?_⟩, fun before after last issued named first main plain => ⟨_, rfl, ?_⟩⟩
  · refine State.answered_onFrame (body := fun t => t.doneReport n) takes ?_
    have unnamed : issuedCount n ((s.loseReply .m).closeFrame .m).queue.issued = .none := issuedCount_none none
    simp only [State.doneReport, unnamed]
    rfl
  · have split : s.queue.issued = (before ++ [last]) ++ after := issued.trans (List.append_cons before last after)
    obtain ⟨ran, answers⟩ := State.donePlain_onFrame takes split named first fun x mem => (plain x mem).1
    have framed : (s.framedOn .m).queue.issued = (before ++ [last]) ++ after := split
    obtain ⟨⟨queue, run⟩, -, store, slots⟩ := State.completeReport_point framed
    have block : ((before ++ [last]).foldl State.completed (s.framedOn .m)).run.colourBlock = s.run.colourBlock :=
      (s.framedOn .m).foldl_completed_block fun x mem closes => by
        rw [(plain x mem).2] at closes
        cases closes.2
    rw [ran]
    rw [block, List.getLast?_concat] at run
    rw [List.getLast?_concat, Option.map_some, Option.getD_some, named] at queue
    have count : (before ++ [last]).length = before.length + 1 := List.length_append
    generalize (s.framedOn .m).completeReport (before ++ [last]).length = c at *
    rw [count] at answers ⊢
    rw [State.answers, beBytes_one, List.singleton_append] at answers
    refine ⟨queue, ?_, ?_, ?_, ?_, ?_, ?_, ?_, store, slots, answers⟩
    · exact (congrArg RunRecord.frame run).trans rfl
    · have cursor := congrArg RunRecord.cursor run
      have design := congrArg RunRecord.design run
      cases ends : ((before ++ [last]).filter (·.lastOfRecord)).getLast? with
      | none =>
        rw [ends] at cursor design
        exact ⟨cursor, design⟩
      | some k =>
        rw [ends] at cursor design
        exact ⟨cursor, design⟩
    · exact (congrArg RunRecord.colourBlock run).trans rfl
    · exact (congrArg RunRecord.needle run).trans rfl
    · exact (congrArg RunRecord.armedSlot run).trans rfl
    · exact (congrArg RunRecord.transform run).trans rfl
    · exact (congrArg RunRecord.pass run).trans main

end Sys2Proof.Machine
end

section
/-! PROOF SUPPORT. The heads that a handover breaks (R136), what the fault action of each leaves in a MAIN pass (R138, R146), and
the fault policy after them (R139). -/

namespace Sys2Proof.Machine

open Sys2Proof

variable {s t u : State} {n h g : Nat}

/-! ### The heads that break (R136) -/

/-- A head breaks when `n` STEPs are handed over: ACTIVE, and its no-motion count reaches K. -/
abbrev State.breaksAt (s : State) (n h : Nat) : Prop :=
  (s.head h).state = .active ∧ s.constants.motionLimit ≤ (s.head h).noMotion + n

/-- The heads that break, in ascending order. -/
def State.breaking (s : State) (n : Nat) : List Nat := headNumbers.filter fun h => decide (s.breaksAt n h)

theorem State.mem_breaking : h ∈ s.breaking n ↔ h ∈ headNumbers ∧ s.breaksAt n h := by
  rw [State.breaking, List.mem_filter, decide_eq_true_eq]

theorem State.breaking_nodup (s : State) (n : Nat) : (s.breaking n).Nodup := headNumbers_nodup.filter _

theorem State.breaking_length (s : State) (n : Nat) : (s.breaking n).length ≤ 24 :=
  (List.length_filter_le _ _).trans headNumbers_length.le

theorem State.breaks_iff : s.breaks n ↔ s.breaking n ≠ [] := by
  constructor
  · rintro ⟨h, mem, breaks⟩ none
    have : h ∈ s.breaking n := State.mem_breaking.mpr ⟨mem, breaks⟩
    rw [none] at this
    cases this
  · intro some
    obtain ⟨h, mem⟩ := List.exists_mem_of_ne_nil _ some
    exact ⟨h, State.mem_breaking.mp mem⟩

theorem State.brokenHeads_addStitches (s : State) (n : Nat) : (s.addStitches n).brokenHeads = s.breaking n := by
  rw [State.brokenHeads, State.breaking, (State.OnlyHeads.addStitches s n).constants]
  refine List.filter_congr fun h mem => ?_
  rw [State.head_addStitches s n mem, ← Bool.decide_and, decide_eq_decide]
  split
  · next active => simp only [active, true_and, State.breaksAt, min_eq_right_iff]
  · next rests => simp only [rests, false_and, State.breaksAt]

/-- The counts alone are written. -/
theorem State.addStitches_heads (s : State) (n : Nat) : ∃ z, s.addStitches n = s.withHeads z :=
  State.foldl_keeps (R := fun s t => ∃ z, t = s.withHeads z) (fun s => ⟨s.heads, rfl⟩)
    (fun ⟨_, e⟩ ⟨z, f⟩ => ⟨z, by rw [f, e]; rfl⟩) (fun t h => by
      split
      · exact ⟨_, rfl⟩
      · exact ⟨t.heads, rfl⟩) headNumbers s

/-! ### The fault action of one head (R138) -/

theorem State.offer_requests_other {r x : RingRequest} (mem : x ∈ s.ring.requests)
    (other : ¬ (x.function = r.function ∧ x.head = r.head)) : x ∈ (s.offer r).ring.requests := by
  unfold State.offer
  split
  · exact mem_coalesce_of_ne mem other
  · exact mem

theorem State.mem_offer_present {r : RingRequest} (present : s.present r.head = true)
    (up : s.ring.state = .full ∨ s.ring.state = .split) : r ∈ (s.offer r).ring.requests := by
  have may : s.mayQueue r = true := by
    rcases up with up | up <;> simp [State.mayQueue, up, present]
  rw [State.offer, if_pos may]
  exact mem_coalesce r _

/-- The presser and the lamp of a head HELD_FAULT (R131). -/
def presserUp (h : Nat) : RingRequest := ⟨.presser, h, 1⟩
def lampFault (h : Nat) : RingRequest := ⟨.lamp, h, 3⟩

/-- A head taken to HELD_FAULT for a fault. -/
abbrev State.heldBy (s : State) (h : Nat) (cause : ThreadFault) : State := s.setHeadState h .heldFault (some (.thread cause))

theorem State.heldBy_requests (s : State) (h : Nat) (cause : ThreadFault) :
    (∀ x ∈ s.ring.requests, x.head ≠ h → x ∈ (s.heldBy h cause).ring.requests) ∧
    ((s.ring.state = .full ∨ s.ring.state = .split) →
      presserUp h ∈ (s.heldBy h cause).ring.requests ∧ lampFault h ∈ (s.heldBy h cause).ring.requests) := by
  have offers : ∃ r : HeadRecord, r.state = .heldFault ∧
      s.heldBy h cause = ((s.putHead h r).offer (presserUp h)).offer (lampFault h) := ⟨_, rfl, rfl⟩
  obtain ⟨r, held, e⟩ := offers
  rw [e]
  have put : (s.putHead h r).ring = s.ring := rfl
  have present : (s.putHead h r).present h = true := by
    rw [State.present_iff, State.head_putHead, if_pos rfl, held]
    exact ⟨nofun, nofun⟩
  refine ⟨fun x mem other => ?_, fun up => ⟨?_, ?_⟩⟩
  · exact State.offer_requests_other (State.offer_requests_other mem fun same => other same.2) fun same => other same.2
  · exact State.offer_requests_other (State.mem_offer_present present up) nofun
  · obtain ⟨q, first⟩ := (s.putHead h r).offer_eq (presserUp h)
    rw [first]
    exact State.mem_offer_present present up

/-- The fault action by the state the head is taken to, the entry and the event. -/
theorem State.faultAction_parts (s : State) (h : Nat) (cause : ThreadFault) :
    (s.faultAction h cause).heads = (s.heldBy h cause).heads ∧ (s.faultAction h cause).ring = (s.heldBy h cause).ring ∧
    (s.faultAction h cause).repairs = ((s.heldBy h cause).faultEntry h cause (s.faultFrom h cause)).repairs := by
  obtain ⟨l, o, entry⟩ := (s.heldBy h cause).faultEntry_eq h cause (s.faultFrom h cause)
  obtain ⟨v, posts⟩ := ((s.heldBy h cause).faultEntry h cause (s.faultFrom h cause)).post_eq
    (faultEvent cause) h (indexParam (s.faultFrom h cause))
  have parts : s.faultAction h cause = ((s.heldBy h cause).faultEntry h cause (s.faultFrom h cause)).withEvents v := posts
  rw [parts]
  generalize s.heldBy h cause = u at entry ⊢
  refine ⟨?_, ?_, rfl⟩
  · rw [State.withEvents_heads, entry]
    rfl
  · rw [State.withEvents_ring, entry]
    rfl

theorem State.head_faultAction_same (s : State) (h : Nat) (cause : ThreadFault) : (s.faultAction h cause).head h =
    { s.head h with state := .heldFault, cause := some (.thread cause) } :=
  (State.head_congr (s.faultAction_parts h cause).1 h).trans ((s.head_setHeadState_same h .heldFault _).trans (if_neg nofun))

/-- The FAULT entry of a head in a MAIN pass (R146). -/
def faultEntryOf (h : Nat) (cause : ThreadFault) (f : Nat) : RepairEntry :=
  { head := h, kind := .fault cause, fromIndex := f, toBlock := none, toIndex := none, deferred := none, sewing := false }

theorem State.mem_repairs_faultAction (main : s.run.pass = .main) (cause : ThreadFault) (e : RepairEntry) :
    e ∈ (s.faultAction h cause).repairs ↔ e = faultEntryOf h cause (s.faultFrom h cause) ∨ e ∈ s.repairs := by
  have pass : (s.heldBy h cause).run.pass = .main := (State.OnlyHeads.setHeadState s h _ _).pass.trans main
  obtain ⟨-, -, repairs⟩ := s.faultAction_parts h cause
  rw [repairs, State.faultEntry, pass]
  simp only [State.setRepairs_repairs, mem_sortEntries, List.mem_cons, State.repairs_setHeadState]
  rfl

theorem State.posted_faultAction {l : List (EventKind × Nat × BitVec 32)} (newest : s.posted l) (room : l.length < 64)
    (h : Nat) (cause : ThreadFault) :
    (s.faultAction h cause).posted (l ++ [(faultEvent cause, h, indexParam (s.faultFrom h cause))]) := by
  obtain ⟨r, q, held, -⟩ := s.setHeadState_eq h .heldFault (some (.thread cause))
  obtain ⟨m, o, entry⟩ := (s.heldBy h cause).faultEntry_eq h cause (s.faultFrom h cause)
  refine State.posted.post (newest.congr ?_ ?_) room _ _ _
  · rw [entry, State.heldBy, held]
    rfl
  · rw [entry, State.heldBy, held]
    rfl

/-- The from-index of a break in a MAIN pass: B records back from the last motion, and no higher than the executed cursor. -/
def State.breakFrom (s : State) (h : Nat) : Nat :=
  Nat.min ((s.head h).lastMotion - s.constants.backstep) s.run.cursor

theorem State.faultFrom_break (main : s.run.pass = .main) (online : ¬ s.run.state.offline) (h : Nat) :
    s.faultFrom h .breakFault = s.breakFrom h := by
  have passed : ¬ (s.run.state = .idle ∨ s.run.state = .arming) := online
  simp only [State.faultFrom, main, if_neg passed, Nat.max_zero]
  rfl

/-! ### The fault actions of several heads (R136) -/

/-- The fault actions of some heads, one after another. -/
def State.breakAll (s : State) (l : List Nat) : State := l.foldl (fun u h => u.faultAction h .breakFault) s

theorem State.broken_eq (s : State) (n : Nat) : s.broken n = (s.addStitches n).breakAll (s.breaking n) := by
  rw [State.broken, State.brokenHeads_addStitches]
  rfl

theorem State.OnlyFaults.breakAll (s : State) (l : List Nat) : s.OnlyFaults (s.breakAll l) :=
  .foldl (fun u h => .faultAction u h .breakFault) l s

theorem State.breakAll_nil (s : State) : s.breakAll [] = s := rfl

theorem State.breakAll_cons (s : State) (h : Nat) (l : List Nat) :
    s.breakAll (h :: l) = (s.faultAction h .breakFault).breakAll l := rfl

theorem State.breakAll_append (s : State) (l m : List Nat) : s.breakAll (l ++ m) = (s.breakAll l).breakAll m :=
  List.foldl_append

theorem State.head_breakAll_other (s : State) {l : List Nat} (out : h ∉ l) : (s.breakAll l).head h = s.head h :=
  State.head_foldl_of_not_mem (fun t _ _ other => t.head_faultAction_other .breakFault other) s out

/-- What a state has that a run in a MAIN pass needs for its from-indexes. -/
theorem State.breakFrom_breakAll (main : s.run.pass = .main) (online : ¬ s.run.state.offline) {l : List Nat} (out : h ∉ l) :
    (s.breakAll l).faultFrom h .breakFault = s.breakFrom h := by
  have only := State.OnlyFaults.breakAll s l
  have run := only.run
  rw [State.faultFrom_break (by rw [run]; exact main) (by rw [run]; exact online), State.breakFrom, State.breakFrom,
    s.head_breakAll_other out, only.constants, run]

theorem State.mem_repairs_breakAll (main : s.run.pass = .main) {e : RepairEntry} (mem : e ∈ s.repairs) (l : List Nat) :
    e ∈ (s.breakAll l).repairs := by
  induction l generalizing s with
  | nil => exact mem
  | cons g l ih =>
    have pass : (s.faultAction g .breakFault).run.pass = .main := by
      rw [(State.OnlyFaults.faultAction s g .breakFault).run]
      exact main
    exact ih pass ((State.mem_repairs_faultAction main _ e).mpr (.inr mem))

theorem State.mem_requests_breakAll {x : RingRequest} {l : List Nat} (mem : x ∈ s.ring.requests) (out : x.head ∉ l) :
    x ∈ (s.breakAll l).ring.requests := by
  induction l generalizing s with
  | nil => exact mem
  | cons g l ih =>
    rw [List.mem_cons, not_or] at out
    refine ih ?_ out.2
    rw [(s.faultAction_parts g .breakFault).2.1]
    exact (s.heldBy_requests g .breakFault).1 x mem out.1

/-- What a break leaves of its head. -/
structure State.Broke (s t : State) (h : Nat) : Prop where
  head : t.head h = { s.head h with state := .heldFault, cause := some (.thread .breakFault) }
  entry : faultEntryOf h .breakFault (s.breakFrom h) ∈ t.repairs
  requests : s.ring.state = .full ∨ s.ring.state = .split → presserUp h ∈ t.ring.requests ∧ lampFault h ∈ t.ring.requests

theorem State.broke_of_mem (main : s.run.pass = .main) (online : ¬ s.run.state.offline) {l : List Nat} (nodup : l.Nodup)
    (mem : h ∈ l) : s.Broke (s.breakAll l) h := by
  obtain ⟨pre, post, rfl⟩ := List.append_of_mem mem
  have before : h ∉ pre := fun m => (List.nodup_append.mp nodup).2.2 h m h List.mem_cons_self rfl
  have later : h ∉ post := (List.nodup_cons.mp (List.nodup_append.mp nodup).2.1).1
  have only := State.OnlyFaults.breakAll s pre
  have found := s.head_breakAll_other before
  have back := State.breakFrom_breakAll main online before
  have ring : (s.breakAll pre).ring.state = s.ring.state := (congrArg (·.ring.state) only.eq).trans rfl
  have pass : (s.breakAll pre).run.pass = .main := by
    rw [only.run]
    exact main
  rw [State.breakAll_append, State.breakAll_cons]
  generalize s.breakAll pre = u at found back ring pass
  obtain ⟨-, rings, -⟩ := u.faultAction_parts h .breakFault
  have faulted : (u.faultAction h .breakFault).run.pass = .main := by
    rw [(State.OnlyFaults.faultAction u h .breakFault).run]
    exact pass
  refine ⟨?_, ?_, fun up => ?_⟩
  · rw [← found]
    exact (State.head_breakAll_other _ later).trans (u.head_faultAction_same h .breakFault)
  · exact State.mem_repairs_breakAll faulted ((State.mem_repairs_faultAction pass _ _).mpr (.inl (by rw [back]))) post
  · obtain ⟨presser, lamp⟩ := (u.heldBy_requests h .breakFault).2 (by rw [ring]; exact up)
    rw [← rings] at presser lamp
    generalize u.faultAction h .breakFault = faulted at presser lamp ⊢
    exact ⟨State.mem_requests_breakAll (s := faulted) presser later, State.mem_requests_breakAll (s := faulted) lamp later⟩

/-- THREAD_BREAK as it is posted for a head in a MAIN pass (R138). -/
def State.breakEvent (s : State) (h : Nat) : EventKind × Nat × BitVec 32 :=
  (.threadBreak, h, BitVec.ofNat 32 (s.breakFrom h % 2 ^ 18))

/-- THREAD_BREAK of each head, in the order of the fault actions. -/
theorem State.posted_breakAll (main : s.run.pass = .main) (online : ¬ s.run.state.offline) (l : List Nat) (nodup : l.Nodup)
    (room : l.length ≤ 64) :
    (s.breakAll l).posted (l.map s.breakEvent) := by
  induction l using List.reverseRecOn with
  | nil => exact fun _ => List.nil_suffix
  | append_singleton l h ih =>
    rw [List.nodup_append] at nodup
    rw [List.length_append, List.length_singleton] at room
    have out : h ∉ l := fun m => nodup.2.2 h m h (List.mem_singleton_self h) rfl
    have next := State.posted_faultAction (ih nodup.1 (by omega)) (by rw [List.length_map]; omega) h .breakFault
    rw [State.breakFrom_breakAll main online out, indexParam_eq] at next
    rw [State.breakAll_append, List.map_append]
    exact next

/-! ### What the handover leaves in a MAIN pass (R86, R136) -/

/-- The heads, the entries, the requests and the events after `n` STEPs have been handed over in a MAIN pass. -/
structure State.HandsOver (s t : State) (n : Nat) : Prop where
  rests : ∀ h ∈ headNumbers, (s.head h).state ≠ .active → t.head h = s.head h
  sews : ∀ h ∈ headNumbers, (s.head h).state = .active → ¬ s.breaksAt n h →
    t.head h = { s.head h with noMotion := (s.head h).noMotion + n }
  breaks : ∀ h ∈ s.breaking n, t.head h = { s.head h with
      state := .heldFault, cause := some (.thread .breakFault), noMotion := s.constants.motionLimit } ∧
    faultEntryOf h .breakFault (s.breakFrom h) ∈ t.repairs ∧
    (s.ring.state = .full ∨ s.ring.state = .split → presserUp h ∈ t.ring.requests ∧ lampFault h ∈ t.ring.requests)
  posted : t.posted ((s.breaking n).map s.breakEvent)
  whole : s.breaking n = [] → t.events = s.events ∧ t.ring = s.ring

/-- What is written besides leaves them. -/
theorem State.HandsOver.congr (handed : s.HandsOver t n) (heads : u.heads = t.heads) (ring : u.ring = t.ring)
    (repairs : u.repairs = t.repairs) (events : u.events = t.events) (classes : u.classes = t.classes) : s.HandsOver u n := by
  have head := State.head_congr heads
  refine ⟨?_, ?_, ?_, handed.posted.congr events classes, ?_⟩
  · intro h
    rw [head]
    exact handed.rests h
  · intro h
    rw [head]
    exact handed.sews h
  · intro h
    rw [head, ring, repairs]
    exact handed.breaks h
  · rw [events, ring]
    exact handed.whole

theorem State.handsOver_broken (main : s.run.pass = .main) (online : ¬ s.run.state.offline) (n : Nat) :
    s.HandsOver (s.broken n) n := by
  obtain ⟨z, counts⟩ := s.addStitches_heads n
  have counted := fun h => State.head_addStitches s n (h := h)
  have broke : ∀ h ∈ s.breaking n, (s.addStitches n).Broke (s.broken n) h := by
    rw [State.broken_eq]
    refine fun h => State.broke_of_mem ?_ ?_ (s.breaking_nodup n)
    · rw [counts]
      exact main
    · rw [counts]
      exact online
  have untouched : ∀ h, ¬ s.breaksAt n h → (s.broken n).head h = (s.addStitches n).head h := fun h whole => by
    rw [State.broken_eq]
    exact State.head_breakAll_other _ fun mem => whole (State.mem_breaking.mp mem).2
  have back : ∀ h ∈ headNumbers, (s.addStitches n).breakFrom h = s.breakFrom h := fun h mem => by
    have motion : ((s.addStitches n).head h).lastMotion = (s.head h).lastMotion := by
      rw [counted h mem]
      split <;> rfl
    rw [State.breakFrom, State.breakFrom, motion, counts]
    rfl
  refine ⟨fun h mem rests => ?_, fun h mem active whole => ?_, fun h mem => ?_, ?_, fun none => ?_⟩
  · rw [untouched h fun breaks => rests breaks.1, counted h mem, if_neg rests]
  · have below : (s.head h).noMotion + n ≤ s.constants.motionLimit :=
      (Nat.lt_of_not_le fun reaches => whole ⟨active, reaches⟩).le
    rw [untouched h whole, counted h mem, if_pos active, Nat.min_eq_left below]
  · obtain ⟨number, active, reaches⟩ := State.mem_breaking.mp mem
    obtain ⟨head, entry, requests⟩ := broke h mem
    rw [counted h number, if_pos active, Nat.min_eq_right reaches] at head
    rw [back h number] at entry
    rw [counts] at requests
    exact ⟨head, entry, requests⟩
  · have posted := State.posted_breakAll (s := s.addStitches n) (by rw [counts]; exact main) (by rw [counts]; exact online)
      (s.breaking n) (s.breaking_nodup n) ((s.breaking_length n).trans (by decide))
    rw [← State.broken_eq] at posted
    have same : (s.breaking n).map (s.addStitches n).breakEvent = (s.breaking n).map s.breakEvent :=
      List.map_congr_left fun h mem => by rw [State.breakEvent, State.breakEvent, back h (State.mem_breaking.mp mem).1]
    exact same ▸ posted
  · rw [State.broken_eq, none, State.breakAll_nil, counts]
    exact ⟨rfl, rfl⟩

/-! ### The fault policy (R139) -/

/-- Only the run state, the stop reason and what leaving RUNNING empties are written. -/
def State.StopsOnly (s t : State) : Prop :=
  ∃ st r b a, t = ((s.withRun { s.run with state := st, stopReason := r }).withSeq { s.seq with buffer := b }).withArbiter a

theorem State.StopsOnly.refl (s : State) : s.StopsOnly s := ⟨s.run.state, s.run.stopReason, s.seq.buffer, s.arbiter, rfl⟩

theorem State.StopsOnly.handsOver (h : t.StopsOnly u) (handed : s.HandsOver t n) : s.HandsOver u n := by
  obtain ⟨st, r, b, a, rfl⟩ := h
  exact handed.congr rfl rfl rfl rfl rfl

/-- The policy stops a RUNNING run under STOP_ALL or with no head ACTIVE, and else lets a run that moves go on. -/
theorem State.applyPolicy_live (live : s.run.state = .running ∨ s.run.state = .stopping) :
    s.StopsOnly s.applyPolicy ∧
    (s.run.state = .running → s.constants.faultPolicy = .stopAll ∨ s.anyHead .active = false →
      s.applyPolicy.run.state = .stopping ∧ s.applyPolicy.run.stopReason = .fault) ∧
    (s.run.state = .stopping ∨ ¬ (s.constants.faultPolicy = .stopAll ∨ s.anyHead .active = false) → s.applyPolicy = s) := by
  by_cases stops : s.constants.faultPolicy = .stopAll ∨ s.anyHead .active = false
  · rcases live with running | stopping
    · obtain ⟨b, a, e⟩ := s.setRunState_eq .stopping
      have asked : s.applyPolicy = (s.setRunState .stopping).setStopReason .fault := by
        simp only [State.applyPolicy, if_pos stops, State.requestStop, running]
      rw [asked, e]
      refine ⟨⟨.stopping, .fault, b, a, rfl⟩, fun _ _ => ⟨rfl, rfl⟩, fun still => ?_⟩
      rw [running] at still
      cases still with
      | inl stopping => cases stopping
      | inr goes => exact absurd stops goes
    · have still := State.applyPolicy_stopping stopping
      rw [still]
      refine ⟨.refl s, fun running => ?_, fun _ => rfl⟩
      rw [stopping] at running
      cases running
  · have still : s.applyPolicy = s := if_neg stops
    rw [still]
    exact ⟨.refl s, fun _ stop => absurd stop stops, fun _ => rfl⟩

/-- No head is left ACTIVE after the handover: every ACTIVE one broke. -/
theorem State.HandsOver.anyHead (handed : s.HandsOver t n) :
    t.anyHead .active = false ↔ ∀ h ∈ headNumbers, (s.head h).state = .active → s.breaksAt n h := by
  simp only [State.anyHead, List.any_eq_false, decide_eq_true_eq]
  constructor
  · refine fun none h mem active => not_not.mp fun whole => none h mem ?_
    rw [handed.sews h mem active whole]
    exact active
  · intro all h mem
    by_cases active : (s.head h).state = .active
    · rw [(handed.breaks h (State.mem_breaking.mpr ⟨mem, all h mem active⟩)).1]
      nofun
    · rw [handed.rests h mem active]
      exact active

/-- Where the fault policy stops the run after `n` STEPs have been handed over (R139). -/
def State.stopsAt (s : State) (n : Nat) : Prop :=
  s.breaking n ≠ [] ∧ (s.constants.faultPolicy = .stopAll ∨
    ∀ h ∈ headNumbers, (s.head h).state = .active → s.breaksAt n h)

/-- The handover of a run that moves, in a MAIN pass: the breaks, and the policy once. -/
theorem State.handover_live (main : s.run.pass = .main) (live : s.run.state = .running ∨ s.run.state = .stopping) (n : Nat) :
    s.HandsOver (s.handover n) n ∧ (s.broken n).StopsOnly (s.handover n) ∧
    (s.run.state = .running → s.stopsAt n →
      (s.handover n).run.state = .stopping ∧ (s.handover n).run.stopReason = .fault) ∧
    (s.run.state = .stopping ∨ ¬ s.stopsAt n →
      (s.handover n).run.state = s.run.state ∧ (s.handover n).run.stopReason = s.run.stopReason) := by
  have online : ¬ s.run.state.offline := by
    rcases live with state | state <;> simp [state, RunState.offline]
  have handed := State.handsOver_broken main online n
  have only := State.OnlyFaults.broken s n
  have kept : (s.broken n).run.state = s.run.state ∧ (s.broken n).run.stopReason = s.run.stopReason := by
    rw [only.run]
    exact ⟨rfl, rfl⟩
  have policy : s.constants.faultPolicy = .stopAll ∨ (s.broken n).anyHead .active = false ↔
      s.constants.faultPolicy = .stopAll ∨ ∀ h ∈ headNumbers, (s.head h).state = .active → s.breaksAt n h := by
    rw [handed.anyHead]
  rw [← only.constants] at policy
  by_cases breaks : s.breaks n
  · have some : s.breaking n ≠ [] := State.breaks_iff.mp breaks
    obtain ⟨stops, running, rests⟩ := State.applyPolicy_live (s := s.broken n) (by rw [kept.1]; exact live)
    rw [kept.1, policy, only.constants] at running rests
    rw [State.handover_breaks breaks]
    refine ⟨stops.handsOver handed, stops, fun runs halts => running runs halts.2, fun still => ?_⟩
    rw [rests (still.imp_right fun goes stop => goes ⟨some, stop⟩)]
    exact kept
  · have none : s.breaking n = [] := not_not.mp fun some => breaks (State.breaks_iff.mpr some)
    have whole : s.handover n = s.broken n := by
      rw [State.handover_whole breaks, State.broken_eq, none, State.breakAll_nil]
    rw [whole]
    exact ⟨handed, .refl _, fun _ halts => absurd none halts.1, fun _ => kept⟩

end Sys2Proof.Machine
end

section
/-! PROOF. O34: the STEP handover of a DONE, the breaks and the fault policy in a MAIN pass (R86, R134, R136, R138, R139, R146). -/

namespace Sys2Proof.Machine

open Sys2Proof

variable {s t u : State} {n : Nat} {done rest : List Token}

/-! ### What the handover speaks of -/

section same

variable (heads : u.heads = s.heads) (constants : u.constants = s.constants)
include heads constants

theorem State.breaksAt_congr (h : Nat) : u.breaksAt n h ↔ s.breaksAt n h := by
  rw [State.breaksAt, State.head_congr heads, constants]

theorem State.breaking_congr : u.breaking n = s.breaking n :=
  List.filter_congr fun h _ => decide_eq_decide.mpr (State.breaksAt_congr heads constants h)

theorem State.stopsAt_congr : u.stopsAt n ↔ s.stopsAt n := by
  simp only [State.stopsAt, State.breaking_congr heads constants, constants, State.head_congr heads,
    State.breaksAt_congr heads constants]

/-- Heads, constants, ring, events and the executed cursor are all that it starts from. -/
theorem State.HandsOver.of_same (handed : s.HandsOver t n) (ring : u.ring = s.ring) (events : u.events = s.events)
    (cursor : u.run.cursor = s.run.cursor) : u.HandsOver t n := by
  have head := State.head_congr heads
  have breaking := State.breaking_congr (n := n) heads constants
  have back : ∀ h, u.breakFrom h = s.breakFrom h := fun h => by
    rw [State.breakFrom, State.breakFrom, head, constants, cursor]
  have event : u.breakEvent = s.breakEvent := funext fun h => by rw [State.breakEvent, State.breakEvent, back]
  refine ⟨fun h mem => ?_, fun h mem active whole => ?_, fun h mem => ?_, ?_, ?_⟩
  · rw [head]
    exact handed.rests h mem
  · rw [head] at active ⊢
    exact handed.sews h mem active fun breaks => whole ((State.breaksAt_congr heads constants h).mpr breaks)
  · rw [breaking] at mem
    rw [head, constants, back, ring]
    exact handed.breaks h mem
  · rw [breaking, event]
    exact handed.posted
  · rw [breaking, ring, events]
    exact handed.whole

end same

/-! ### What a report writes in a MAIN pass -/

/-- The fields that a report of a run that moves may write in a MAIN pass. -/
def State.ReportWrites (s t : State) : Prop :=
  ∃ queue run seq arbiter heads ring repairs events, t = { s with
    queue := queue, run := run, seq := seq, arbiter := arbiter, heads := heads, ring := ring, repairs := repairs,
    events := events }

theorem State.OnlyFaults.writes (only : s.OnlyFaults t) : ∃ heads ring repairs events run, t = { s with
    heads := heads, ring := ring, repairs := repairs, events := events, run := run } := ⟨_, _, _, _, _, only.eq⟩

section report

variable (main : s.run.pass = .main) (issued : s.queue.issued = done ++ rest)
include main issued

theorem State.completeTokens_writes :
    ∃ queue run repairs, s.completeTokens done.length = { s with queue := queue, run := run, repairs := repairs } := by
  obtain ⟨b, completed⟩ := s.foldl_completed done
  have only := (State.OnlyRepairs.completeTokens main issued).eq
  rw [completed] at only
  exact ⟨_, _, _, only⟩

/-- The handover of a report, told from the state in which the frame finds the part, at the executed cursor it leaves. -/
theorem State.completeReport_handsOver (live : s.run.state = .running ∨ s.run.state = .stopping) :
    s.ReportWrites (s.completeReport done.length) ∧
    (s.withRun { s.run with cursor := (s.completeReport done.length).run.cursor }).HandsOver (s.completeReport done.length)
      (stepsIn done) ∧
    (s.run.state = .running → s.stopsAt (stepsIn done) → (s.completeReport done.length).run.state = .stopping ∧
      (s.completeReport done.length).run.stopReason = .fault) ∧
    (s.run.state = .stopping ∨ ¬ s.stopsAt (stepsIn done) →
      (s.completeReport done.length).run.state = s.run.state ∧
      (s.completeReport done.length).run.stopReason = s.run.stopReason) := by
  obtain ⟨heads, constants, state, reason⟩ := State.completeTokens_main main issued
  obtain ⟨queue, run, repairs, completed⟩ := State.completeTokens_writes main issued
  have pass : (s.completeTokens done.length).run.pass = .main := by
    obtain ⟨b, point⟩ := s.foldl_completed done
    rw [(State.OnlyRepairs.completeTokens main issued).eq, point]
    exact main
  have ring : (s.completeTokens done.length).ring = s.ring := (congrArg State.ring completed).trans rfl
  have events : (s.completeTokens done.length).events = s.events := (congrArg State.events completed).trans rfl
  rw [State.completeReport_issued issued]
  generalize s.completeTokens done.length = p at *
  obtain ⟨handed, stops, running, rests⟩ := State.handover_live pass (state ▸ live) (stepsIn done)
  rw [state, reason] at rests
  rw [state] at running
  rw [State.stopsAt_congr heads constants] at running rests
  obtain ⟨z, r, l, v, o, broken⟩ := (State.OnlyFaults.broken p (stepsIn done)).writes
  have cursor : (p.broken (stepsIn done)).run.cursor = p.run.cursor := by rw [(State.OnlyFaults.broken p _).run]
  generalize p.broken (stepsIn done) = faulted at stops broken cursor
  obtain ⟨st, reason, b, a, handover⟩ := stops
  generalize p.handover (stepsIn done) = t at *
  have same : t.run.cursor = p.run.cursor := by
    rw [handover]
    exact cursor
  refine ⟨?_, handed.of_same heads.symm constants.symm ring.symm events.symm same, running, rests⟩
  rw [handover, broken, completed]
  exact ⟨_, _, _, _, _, _, _, _, rfl⟩

end report

/-! ### O34 -/

/-- Settles O34: the handover of the report, through the frame and its reply. -/
theorem breakFoundAtHandover : Obligations.BreakFoundAtHandover := by
  intro s n before after last takes main issued named first plain live
  extract_lets steps breaks broken
  have split : s.queue.issued = (before ++ [last]) ++ after := issued.trans (List.append_cons before last after)
  obtain ⟨ran, -⟩ := State.donePlain_onFrame takes split named first fun x mem => (plain x mem).1
  obtain ⟨writes, handed, stops, goes⟩ :=
    State.completeReport_handsOver (s := s.framedOn .m) (done := before ++ [last]) (rest := after) main split live
  refine ⟨_, rfl, ?_⟩
  rw [ran]
  have state : (s.framedOn .m).run = s.run := rfl
  have halts : (s.framedOn .m).stopsAt (stepsIn (before ++ [last])) ↔ broken ≠ [] ∧
      (s.constants.faultPolicy = .stopAll ∨ ∀ h ∈ headNumbers, (s.head h).state = .active → breaks h) := Iff.rfl
  have framed : ∃ p, s.framedOn .m = { s with portM := p } := ⟨_, rfl⟩
  rw [halts, state] at stops goes
  generalize (s.framedOn .m).completeReport (before ++ [last]).length = c at *
  have replied : ((s.framedOn .m).withRun { s.run with cursor := c.run.cursor }).HandsOver
      (c.reportReply (before ++ [last]).length) steps := handed.congr rfl rfl rfl rfl rfl
  obtain ⟨rests, sews, broke, posted, whole⟩ := replied
  obtain ⟨p, framed⟩ := framed
  obtain ⟨queue, run, seq, arbiter, heads, ring, repairs, events, writes⟩ := writes
  refine ⟨?_, rests, sews, broke, posted, whole, fun stopping => ?_, fun running => ?_⟩
  · rw [writes, framed]
    rfl
  · exact ⟨(goes (.inl stopping)).1.trans stopping, (goes (.inl stopping)).2⟩
  · split
    · next stop => exact stops running stop
    · next on => exact ⟨(goes (.inr on)).1.trans running, (goes (.inr on)).2⟩

end Sys2Proof.Machine
end

section
/-! PROOF. O39: the steps of a walk (R96, R97), what its end leaves and leaves alone (R99), and the end of a walk read (R101). -/

namespace Sys2Proof.Machine

open Sys2Proof

variable {s t u : State} {w : WalkRecord} {r : StitchRecord} {x : StoreRead} {cause : WalkEnd} {k : Nat}

/-! ### The steps of a walk (R96) -/

theorem WalkRecord.stepForward_eq (w : WalkRecord) (r : StitchRecord) : w.stepForward r = { w with
    cursor := w.cursor + 1, design := positionAfter w.design r,
    colourBlock := w.colourBlock + (if r.kind = .colour then 1 else 0),
    stitches := w.stitches + (if r.kind = .stitch then 1 else 0) } := by
  obtain ⟨kind, slow, dx, dy⟩ := r
  cases kind <;> rfl

theorem WalkRecord.stepBack_eq (w : WalkRecord) (r : StitchRecord) : w.stepBack r = { w with
    cursor := w.cursor - 1, design := (w.stepBack r).design,
    colourBlock := w.colourBlock - (if r.kind = .colour then 1 else 0),
    stitches := w.stitches + (if r.kind = .stitch then 1 else 0) } := by
  obtain ⟨kind, slow, dx, dy⟩ := r
  cases kind <;> rfl

theorem Point.minus_plus (p q : Point) : (p.minus q).plus q = p := by
  simp only [Point.plus, Point.minus, Int.sub_add_cancel]

/-- A step back takes off the deltas that a step forward over the record adds. -/
theorem WalkRecord.positionAfter_stepBack (w : WalkRecord) (r : StitchRecord) :
    positionAfter (w.stepBack r).design r = w.design := by
  obtain ⟨kind, slow, dx, dy⟩ := r
  cases kind
  case stitch => exact w.design.minus_plus _
  case jump => exact w.design.minus_plus _
  all_goals rfl

/-! ### The record a walk has read, by mode and direction (R97) -/

theorem WalkRecord.meet_back (mode : w.mode = .back) : w.meet r =
    (w.stepBack r, if (w.stepBack r).stitches = w.goal then some .target else none) := by
  simp only [WalkRecord.meet, mode]

theorem WalkRecord.meet_forward (mode : w.mode = .forward) : w.meet r =
    if r.kind = .endRecord then (w, some .limit)
    else (w.stepForward r, if (w.stepForward r).stitches = w.goal then some .target else none) := by
  simp only [WalkRecord.meet, mode]

theorem WalkRecord.meet_toIndex (mode : w.mode = .toIndex) : w.meet r =
    (if w.direction = .back then w.stepBack r else w.stepForward r, none) := by
  simp only [WalkRecord.meet, mode]

theorem WalkRecord.meet_toBlock_back (mode : w.mode = .toBlock) (dir : w.direction = .back) : w.meet r =
    if r.kind = .colour ∧ w.colourBlock = w.goal then (w, some .target) else (w.stepBack r, none) := by
  simp only [WalkRecord.meet, mode, dir, if_true]

theorem WalkRecord.meet_toBlock_forward (mode : w.mode = .toBlock) (dir : w.direction ≠ .back) : w.meet r =
    (w.stepForward r, if (w.stepForward r).colourBlock = w.goal then some .target else none) := by
  simp only [WalkRecord.meet, mode, if_neg dir]

/-- Only the walk's point and its count of stitches differ. -/
def WalkRecord.StepsTo (w v : WalkRecord) : Prop :=
  ∃ c d b n, v = { w with cursor := c, design := d, colourBlock := b, stitches := n }

theorem WalkRecord.stepsTo_refl (w : WalkRecord) : w.StepsTo w := ⟨_, _, _, _, rfl⟩

theorem WalkRecord.stepsTo_stepBack (w : WalkRecord) (r : StitchRecord) : w.StepsTo (w.stepBack r) :=
  ⟨_, _, _, _, w.stepBack_eq r⟩

theorem WalkRecord.stepsTo_stepForward (w : WalkRecord) (r : StitchRecord) : w.StepsTo (w.stepForward r) :=
  ⟨_, _, _, _, w.stepForward_eq r⟩

theorem WalkRecord.stepsTo_meet (w : WalkRecord) (r : StitchRecord) : w.StepsTo (w.meet r).1 := by
  cases mode : w.mode with
  | back => rw [WalkRecord.meet_back mode]; exact w.stepsTo_stepBack r
  | forward =>
    rw [WalkRecord.meet_forward mode]
    split
    · exact w.stepsTo_refl
    · exact w.stepsTo_stepForward r
  | toIndex =>
    rw [WalkRecord.meet_toIndex mode]
    dsimp only
    split
    · exact w.stepsTo_stepBack r
    · exact w.stepsTo_stepForward r
  | toBlock =>
    by_cases dir : w.direction = .back
    · rw [WalkRecord.meet_toBlock_back mode dir]
      split
      · exact w.stepsTo_refl
      · exact w.stepsTo_stepBack r
    · rw [WalkRecord.meet_toBlock_forward mode dir]
      exact w.stepsTo_stepForward r

/-! ### What the end of a walk leaves alone (R99) -/

/-- A requester that pauses has no read to drop (R14). -/
theorem State.dropRead_pausing {q : Requester} (pausing : s.arbiter.request q = .pausing) : s.dropRead q = s := by
  simp only [State.dropRead, pausing]

theorem State.takeWalk_still (s : State) (w : WalkRecord) : (s.takeWalk w).run.state ≠ .running := by
  rw [State.takeWalk_eq]
  dsimp only [State.withSeq, State.withRun]
  split <;> nofun

/-- Outside RUNNING the end of a repair pass writes the run state and the Event Queue alone. -/
theorem State.finishRepair_eq (still : s.run.state ≠ .running) : ∃ q,
    s.finishRepair = (s.withRun { s.run with state := .finished }).withEvents q := by
  rw [State.finishRepair, State.setRunState_of_not_running s _ still]
  exact State.post_eq _ _ _ _

theorem State.finishEmptied_eq (s : State) (w : WalkRecord) (still : s.run.state ≠ .running) : ∃ st q,
    s.finishEmptied w = (s.withRun { s.run with state := st }).withEvents q := by
  unfold State.finishEmptied
  split
  · exact ⟨_, State.finishRepair_eq still⟩
  · exact ⟨s.run.state, s.events, rfl⟩

/-- The end of a walk leaves the store, the slots, the access fault record, the class table, and the arbiter but for its own
read. -/
theorem State.endWalk_keeps (s : State) (w : WalkRecord) (cause : WalkEnd) :
    (s.endWalk w cause).store = s.store ∧ (s.endWalk w cause).slots = s.slots ∧
    (s.endWalk w cause).faultRecord = s.faultRecord ∧ (s.endWalk w cause).classes = s.classes ∧
    (s.endWalk w cause).arbiter = (s.dropRead .walk).arbiter := by
  obtain ⟨u, only, ended⟩ := s.endWalk_eq w cause
  obtain ⟨q, posts⟩ := u.post_eq .walkDone 0 (walkParam w.cursor cause)
  obtain ⟨a, drops⟩ := s.dropRead_eq .walk
  have still : (u.post .walkDone 0 (walkParam w.cursor cause)).run.state ≠ .running := by
    rw [State.post_run, only.run]
    exact State.takeWalk_still _ w
  obtain ⟨st, v, finished⟩ := State.finishEmptied_eq _ w still
  have taken := only.eq
  rw [drops] at taken ⊢
  rw [ended, finished, posts]
  exact ⟨(congrArg State.store taken).trans rfl, (congrArg State.slots taken).trans rfl,
    (congrArg State.faultRecord taken).trans rfl, (congrArg State.classes taken).trans rfl,
    (congrArg State.arbiter taken).trans rfl⟩

/-- The heads are seen to at the end of a walk of REPAIR alone. -/
def State.headsSeen (s : State) : WalkRequester → State
  | .walk => s
  | .repair => s.placeAll

theorem State.OnlyHeads.placeAll (s : State) : s.OnlyHeads s.placeAll := by
  refine .foldl (fun t h => ?_) headNumbers s
  split
  · exact .setJoin t h none
  · exact .setJoin t h none
  · exact .setJoin t h none
  · exact .placeHead t h

theorem State.OnlyHeads.headsSeen (s : State) (q : WalkRequester) : s.OnlyHeads (s.headsSeen q) := by
  cases q with
  | walk => exact .refl s
  | repair => exact .placeAll s

/-- A walk that ends with no SKIP entry deferred. -/
theorem State.endWalk_noSkips (s : State) (cause : WalkEnd) (noSkips : w.deferredSkips = []) : s.endWalk w cause =
    ((((s.dropRead .walk).takeWalk w).headsSeen w.requester).post .walkDone 0 (walkParam w.cursor cause)).finishEmptied w := by
  have none : (headNumbers.filter fun h => w.deferredSkips.contains h) = [] := by
    rw [noSkips]
    exact List.filter_eq_nil_iff.mpr fun _ _ => Bool.false_ne_true
  rw [State.endWalk, none]
  rfl

theorem State.finishEmptied_unlisted (s : State) (listed : w.listEmptied = false) : s.finishEmptied w = s :=
  if_neg fun emptied => Bool.false_ne_true (listed.symm.trans emptied.1)

/-- With no SKIP entry deferred, WALK_DONE is the only event of the end of a walk. -/
theorem State.endWalk_posted {l : List (EventKind × Nat × BitVec 32)} (newest : s.posted l) (room : l.length < 64)
    (cause : WalkEnd) (noSkips : w.deferredSkips = []) (listed : w.listEmptied = false) :
    (s.endWalk w cause).posted (l ++ [(.walkDone, 0, walkParam w.cursor cause)]) := by
  have heads := (State.OnlyHeads.headsSeen ((s.dropRead .walk).takeWalk w) w.requester).eq
  obtain ⟨a, drops⟩ := s.dropRead_eq .walk
  rw [State.endWalk_noSkips s cause noSkips, State.finishEmptied_unlisted _ listed]
  refine State.posted.post (newest.congr ?_ ?_) room _ _ _
  · rw [heads, drops]
    rfl
  · rw [heads, drops]
    rfl

/-! ### The end of a walk read (R96, R101) -/

/-- The state after a walk read: the access ends, and the walk acts on what was read. -/
def State.walkExamined (s : State) (w : WalkRecord) (x : StoreRead) : State :=
  let u := (s.readChunk x.chunk).1.endAccess .walk
  match (s.readChunk x.chunk).2 with
  | .records rs _ => u.walkRecord w (rs.getD (x.index % 4) endOfDesign)
  | .uncorrectable => u.walkFault w x

theorem exec_walkReadDone (power : s.power ≠ .held) (holder : s.arbiter.holder = some (.internal .walk))
    (served : s.arbiter.walk = .served x true) (walk : s.walk = some w) :
    exec .walkReadDone s = .next (s.walkExamined w x) := by
  obtain ⟨st, v, e, -⟩ := s.readChunk_eq x.chunk
  have kept : ((s.readChunk x.chunk).1.endAccess .walk).walk = some w := by rw [e]; exact walk
  refine congrArg Host.Outcome.next ((State.onEvent_acts s _ power).trans ?_)
  simp only [State.walkReadDone, holder, served, kept]
  rfl

/-- The walk over a record that it read clean. -/
theorem State.walkExamined_clean (clean : (s.chunk x.chunk).changed = []) : s.walkExamined w x =
    (s.endAccess .walk).walkRecord w ((s.chunk x.chunk).contents.getD (x.index % 4) endOfDesign) := by
  simp only [State.walkExamined, State.readChunk_of_none clean]

theorem State.walkExamined_uncorrectable (complete : (s.chunk x.chunk).state = .complete)
    (two : (s.chunk x.chunk).changed.length = 2) : s.walkExamined w x = (s.endAccess .walk).walkFault w x := by
  simp only [State.walkExamined, State.readChunk_uncorrectable complete (Chunk.outcome_of_two two)]

theorem State.walkRecord_ends {v : WalkRecord} (met : w.meet r = (v, some cause)) :
    s.walkRecord w r = s.endWalk v cause := by
  simp only [State.walkRecord, met]

theorem State.walkRecord_goesOn {v : WalkRecord} (met : w.meet r = (v, none)) : s.walkRecord w r = s.advanceWalk v := by
  simp only [State.walkRecord, met]

theorem State.advanceWalk_endWalk (ends : w.next s.designLength = .ends cause) : s.advanceWalk w = s.endWalk w cause := by
  simp only [State.advanceWalk, ends]

/-- The state in which a walk that has met an uncorrectable chunk ends: the fault recorded, its slot damaged, MEMORY_FAULT
posted (R101). -/
def State.walkFaulted (s : State) (w : WalkRecord) (x : StoreRead) : State :=
  ((s.recordFault .walk (some (walkCommand w.requester)) (s.run.armedSlot.getD 0) (x.index - x.index % 4) .memory).damageSlot
    (s.run.armedSlot.getD 0)).post .memoryFault 0 (chunkParam x.chunk)

theorem State.walkFault_eq (s : State) (w : WalkRecord) (x : StoreRead) :
    s.walkFault w x = (s.walkFaulted w x).endWalk w .memory := rfl

theorem State.walkFaulted_eq (s : State) (w : WalkRecord) (x : StoreRead) : ∃ f q v,
    s.walkFaulted w x = ((s.withFaultRecord f).withSlots q).withEvents v ∧ f.frozen = true ∧ f.kinds.uncorrectable = true ∧
      (s.faultRecord.frozen = false → f = ⟨true, some .walk, some (walkCommand w.requester), some (s.run.armedSlot.getD 0),
        some (x.index - x.index % 4), ⟨false, false, false, true⟩⟩) := by
  obtain ⟨f, recorded, fault⟩ := s.recordFault_taken .walk (some (walkCommand w.requester)) (s.run.armedSlot.getD 0)
    (x.index - x.index % 4)
  obtain ⟨q, damaged⟩ := (s.withFaultRecord f).damageSlot_eq (s.run.armedSlot.getD 0)
  obtain ⟨v, posts⟩ := ((s.withFaultRecord f).withSlots q).post_eq .memoryFault 0 (chunkParam x.chunk)
  exact ⟨f, q, v, by rw [State.walkFaulted, recorded, damaged, posts], fault⟩

theorem State.slot_walkFaulted (s : State) (w : WalkRecord) (x : StoreRead) (armed : s.run.armedSlot = some k) (j : Nat) :
    (s.walkFaulted w x).slot j = if j = k then
      { s.slot k with state := if (s.slot k).state = .ready then .damaged else (s.slot k).state } else s.slot j := by
  obtain ⟨f, recorded, -⟩ := s.recordFault_taken .walk (some (walkCommand w.requester)) k (x.index - x.index % 4)
  rw [State.walkFaulted, armed, Option.getD_some, recorded, State.slot_congr (State.post_slots _ _ _ _)]
  split
  · next same =>
    rw [same]
    exact State.slot_damageSlot_same _ k
  · next other => exact State.slot_damageSlot_other _ other

/-- The damage of the armed slot leaves its length. -/
theorem State.designLength_walkFaulted (s : State) (w : WalkRecord) (x : StoreRead) :
    (s.walkFaulted w x).designLength = s.designLength := by
  obtain ⟨f, q, v, e, -⟩ := s.walkFaulted_eq w x
  have armed : (s.walkFaulted w x).run.armedSlot = s.run.armedSlot := by rw [e]; rfl
  cases slot : s.run.armedSlot with
  | none => simp only [State.designLength, State.armedRecord, armed, slot]
  | some k =>
    rw [State.designLength_of_armed (armed.trans slot), State.designLength_of_armed slot,
      State.slot_walkFaulted s w x slot, if_pos rfl]

/-- The point a walk hands over at its end, as the end of its read tells it (R99). -/
def State.WalkEnded (s t : State) (v : WalkRecord) (cause : WalkEnd) : Prop :=
  t.walk = none ∧ t.run.cursor = v.cursor ∧ t.run.design = v.design ∧ t.run.colourBlock = v.colourBlock ∧
  t.run.frame = s.run.frame ∧ t.run.state = (if v.cursor = s.designLength then .finished else .paused) ∧
  t.run.stopReason = s.run.stopReason ∧ t.run.needle = s.run.needle ∧ t.run.pass = s.run.pass ∧
  t.run.faultChunk = s.run.faultChunk ∧
  t.seq = { s.seq with
    cursor := v.cursor, design := v.design, frame := s.run.frame, approach := true, split := none, halt := none,
    haltFlag := false, buffer := none } ∧
  t.posted [(.walkDone, 0, walkParam v.cursor cause)]

theorem State.walkEnded_endWalk (cause : WalkEnd) (listed : w.listEmptied = false) :
    s.WalkEnded (s.endWalk w cause) w cause := by
  obtain ⟨walk, run, seq, -, posted⟩ := State.endWalk_leaves (s := s) cause listed
  refine ⟨walk, ?_, ?_, ?_, ?_, ?_, ?_, ?_, ?_, ?_, seq, posted⟩ <;> rw [run]

/-- A requester whose access has ended pauses, whatever its walk makes of the read. -/
theorem State.walkExamined_pauses (s : State) (w : WalkRecord) (x : StoreRead) :
    (s.walkExamined w x).arbiter.walk = .pausing := by
  have paused := (s.readChunk x.chunk).1.request_endAccess .walk
  unfold State.walkExamined
  generalize (s.readChunk x.chunk).1.endAccess .walk = p at paused
  have ended : ∀ (v : WalkRecord) (cause : WalkEnd) (u : State), u.arbiter = p.arbiter →
      (u.endWalk v cause).arbiter.walk = .pausing := fun v cause u same => by
    obtain ⟨-, -, -, -, arbiter⟩ := u.endWalk_keeps v cause
    rw [arbiter, State.dropRead_pausing (by rw [same]; exact paused), same]
    exact paused
  dsimp only
  split
  · next rs flag _ =>
    rcases met : w.meet (rs.getD (x.index % 4) endOfDesign) with ⟨v, _ | cause⟩
    · rw [State.walkRecord_goesOn met]
      cases next : v.next p.designLength with
      | ends cause =>
        rw [State.advanceWalk_endWalk next]
        exact ended v cause p rfl
      | reads i =>
        rw [State.advanceWalk_reads next, State.askRead_busy (s := p.withWalk (some v)) _ (by
          rw [show (p.withWalk (some v)).arbiter.request .walk = .pausing from paused]; nofun)]
        exact paused
    · rw [State.walkRecord_ends met]
      exact ended v cause p rfl
  · obtain ⟨f, q, v, e, -⟩ := p.walkFaulted_eq w x
    rw [State.walkFault_eq]
    exact ended w .memory _ (by rw [e]; rfl)

/-- A clean read leaves the store, the slots and the access fault record. -/
theorem State.walkExamined_leaves (clean : (s.chunk x.chunk).changed = []) :
    (s.walkExamined w x).store = s.store ∧ (s.walkExamined w x).slots = s.slots ∧
    (s.walkExamined w x).faultRecord = s.faultRecord := by
  have ended : ∀ v cause, ((s.endAccess .walk).endWalk v cause).store = s.store ∧
      ((s.endAccess .walk).endWalk v cause).slots = s.slots ∧
      ((s.endAccess .walk).endWalk v cause).faultRecord = s.faultRecord := fun v cause => by
    obtain ⟨store, slots, record, -, -⟩ := (s.endAccess .walk).endWalk_keeps v cause
    exact ⟨store, slots, record⟩
  rw [State.walkExamined_clean clean]
  rcases met : w.meet ((s.chunk x.chunk).contents.getD (x.index % 4) endOfDesign) with ⟨v, _ | cause⟩
  · rw [State.walkRecord_goesOn met]
    cases next : v.next (s.endAccess .walk).designLength with
    | ends cause => rw [State.advanceWalk_endWalk next]; exact ended v cause
    | reads i =>
      obtain ⟨a, asks⟩ := ((s.endAccess .walk).withWalk (some v)).askRead_eq .walk ((s.endAccess .walk).walkRead i)
      rw [State.advanceWalk_reads next, asks]
      exact ⟨rfl, rfl, rfl⟩
  · rw [State.walkRecord_ends met]
    exact ended v cause

/-- A clean read: the walk goes on with its next read, or ends (R97, R99). -/
theorem State.walkExamined_met {v : WalkRecord} {e : Option WalkEnd} (clean : (s.chunk x.chunk).changed = [])
    (listed : w.listEmptied = false)
    (met : w.meet ((s.chunk x.chunk).contents.getD (x.index % 4) endOfDesign) = (v, e)) :
    (e = none → ∀ i, v.next s.designLength = .reads i →
      s.walkExamined w x = (s.endAccess .walk).withWalk (some v)) ∧
    ∀ cause, e = some cause ∨ e = none ∧ v.next s.designLength = .ends cause →
      s.WalkEnded (s.walkExamined w x) v cause := by
  have kept : v.listEmptied = false := by
    obtain ⟨c, d, b, n, steps⟩ := w.stepsTo_meet ((s.chunk x.chunk).contents.getD (x.index % 4) endOfDesign)
    rw [met] at steps
    rw [show v = _ from steps]
    exact listed
  rw [State.walkExamined_clean clean]
  refine ⟨?_, ?_⟩
  · rintro rfl i next
    have paused : ((s.endAccess .walk).withWalk (some v)).arbiter.request .walk = .pausing := s.request_endAccess .walk
    rw [State.walkRecord_goesOn met, State.advanceWalk_reads (s := s.endAccess .walk) next]
    exact State.askRead_busy _ (by rw [paused]; nofun)
  · rintro cause (rfl | ⟨rfl, next⟩)
    · rw [State.walkRecord_ends met]
      exact State.walkEnded_endWalk (s := s.endAccess .walk) cause kept
    · rw [State.walkRecord_goesOn met, State.advanceWalk_endWalk (s := s.endAccess .walk) next]
      exact State.walkEnded_endWalk (s := s.endAccess .walk) cause kept

/-- A read of which two bits have changed (R101). -/
theorem State.walkExamined_faulted (complete : (s.chunk x.chunk).state = .complete)
    (two : (s.chunk x.chunk).changed.length = 2) (listed : w.listEmptied = false) (armed : s.run.armedSlot = some k) :
    let t := s.walkExamined w x
    s.WalkEnded t w .memory ∧ t.store = s.store ∧
    (w.deferredSkips = [] → t.posted [(.memoryFault, 0, chunkParam x.chunk), (.walkDone, 0, walkParam w.cursor .memory)]) ∧
    (∀ j, t.slot j = if j = k then
      { s.slot k with state := if (s.slot k).state = .ready then .damaged else (s.slot k).state } else s.slot j) ∧
    t.faultRecord.frozen = true ∧ t.faultRecord.kinds.uncorrectable = true ∧
    (s.faultRecord.frozen = false → t.faultRecord = ⟨true, some .walk, some (walkCommand w.requester), some k,
      some (x.index - x.index % 4), ⟨false, false, false, true⟩⟩) := by
  obtain ⟨f, q, v, faulted, frozen, uncorrectable, whole⟩ := (s.endAccess .walk).walkFaulted_eq w x
  have slot := (s.endAccess .walk).slot_walkFaulted w x armed
  have length := (s.endAccess .walk).designLength_walkFaulted w x
  have newest : ((s.endAccess .walk).walkFaulted w x).posted [(.memoryFault, 0, chunkParam x.chunk)] := State.posted_post _ _ _ _
  rw [show (s.endAccess .walk).run.armedSlot = some k from armed, Option.getD_some] at whole
  rw [State.walkExamined_uncorrectable complete two, State.walkFault_eq]
  generalize (s.endAccess .walk).walkFaulted w x = p at *
  have ended : p.WalkEnded (p.endWalk w .memory) w .memory := State.walkEnded_endWalk .memory listed
  obtain ⟨store, slots, record, -, -⟩ := p.endWalk_keeps w .memory
  dsimp only
  rw [store, record]
  refine ⟨?_, by rw [faulted]; rfl, fun noSkips =>
      State.endWalk_posted newest (by rw [List.length_singleton]; decide) .memory noSkips listed,
    fun j => (State.slot_congr slots j).trans (slot j), by rw [faulted]; exact frozen, by rw [faulted]; exact uncorrectable,
    by rw [faulted]; exact whole⟩
  rw [State.WalkEnded, length] at ended
  rw [faulted] at ended ⊢
  exact ended

/-- Settles O39: the end of a walk read by what the read found, and the steps of a walk. -/
theorem walkStepsAndWalkReadEnds : Obligations.WalkStepsAndWalkReadEnds := by
  refine ⟨fun s w x power holder served walk complete listed => ?_, fun w r => ⟨WalkRecord.meet_back, fun mode last => ?_,
    fun mode other => ?_, WalkRecord.meet_toIndex, WalkRecord.meet_toBlock_back, WalkRecord.meet_toBlock_forward,
    w.stepForward_eq r, w.stepBack_eq r, w.positionAfter_stepBack r⟩⟩
  · intro ended code
    have told : ∀ {t v cause}, s.WalkEnded t v cause → ended t v (code cause) := by
      rintro t v cause ⟨walk, cursor, design, block, frame, state, reason, needle, pass, chunk, seq, posted⟩
      rw [walkParam_eq] at posted
      refine ⟨walk, cursor, design, block, frame, state, reason, needle, pass, chunk, seq, ?_⟩
      cases cause with
      | target => exact posted
      | limit => exact posted
      | stop => exact posted
      | memory => exact posted
    refine ⟨_, exec_walkReadDone power holder served walk, s.walkExamined_pauses w x, fun clean => ?_, fun two k armed => ?_⟩
    · obtain ⟨store, slots, record⟩ := State.walkExamined_leaves (w := w) clean
      refine ⟨store, slots, record, fun v e met => ?_⟩
      obtain ⟨goesOn, ends⟩ := State.walkExamined_met clean listed met
      refine ⟨fun none i next => ?_, fun cause ending => told (ends cause ending)⟩
      rw [goesOn none i next]
      rfl
    · obtain ⟨faulted, store, posted, slot, frozen, uncorrectable, whole⟩ :=
        State.walkExamined_faulted complete two listed armed
      rw [walkParam_eq, chunkParam_low] at posted
      refine ⟨told (cause := .memory) faulted, store, posted, (slot k).trans (if_pos rfl),
        fun j other => (slot j).trans (if_neg other), frozen, uncorrectable, fun unfrozen => ?_⟩
      rw [whole unfrozen]
      cases w.requester with
      | walk => rfl
      | repair => rfl
  · rw [WalkRecord.meet_forward mode, if_pos last]
  · rw [WalkRecord.meet_forward mode, if_neg other]

end Sys2Proof.Machine
end

section
/-! PROOF SUPPORT. One head in a REPAIR pass: what its changes of state leave of the others, its entries, and where R149 places
it. -/

namespace Sys2Proof.Machine

open Sys2Proof

variable {s t u : State} {h g c : Nat} {st : HeadState} {cause : Option HeadCause}

/-! ### The entries of one head (R145) -/

/-- The entries of one head after a change of each entry that keeps its head. -/
theorem filter_head_map {f : RepairEntry → RepairEntry} (heads : ∀ e, (f e).head = e.head) (l : List RepairEntry) (g : Nat) :
    ((l.map f).filter fun e => decide (e.head = g)) = (l.filter fun e => decide (e.head = g)).map f := by
  rw [List.filter_map]
  congr 2
  funext e
  exact congrArg (fun n => decide (n = g)) (heads e)

theorem State.mem_entriesOf {e : RepairEntry} : e ∈ s.entriesOf g ↔ e ∈ s.repairs ∧ e.head = g := by
  rw [State.entriesOf, List.mem_filter, decide_eq_true_eq]

theorem State.entriesOf_congr (same : t.repairs = s.repairs) (g : Nat) : t.entriesOf g = s.entriesOf g := by
  rw [State.entriesOf, State.entriesOf, same]

/-- A change of each entry that keeps its head, read for one head. -/
theorem State.entriesOf_map (s : State) {f : RepairEntry → RepairEntry} (heads : ∀ e, (f e).head = e.head) (g : Nat) :
    ((s.setRepairs (s.repairs.map f)).entriesOf g).Perm ((s.entriesOf g).map f) :=
  (s.entriesOf_setRepairs _ g).trans (.of_eq (filter_head_map heads _ g))

/-- Entries changed for one head leave those of the others. -/
theorem State.entriesOf_map_other (s : State) {f : RepairEntry → RepairEntry} (heads : ∀ e, (f e).head = e.head)
    (own : ∀ e, e.head ≠ h → f e = e) (other : g ≠ h) :
    ((s.setRepairs (s.repairs.map f)).entriesOf g).Perm (s.entriesOf g) := by
  refine (s.entriesOf_map heads g).trans (.of_eq ((List.map_congr_left fun e mem => ?_).trans (List.map_id _)))
  exact own e fun same => other ((State.mem_entriesOf.mp mem).2.symm.trans same)

/-! ### A head in a REPAIR pass (R134, R149, R151, R152) -/

/-- An entry being sewn of a head that leaves ACTIVE at an executed cursor (R151). -/
def RepairEntry.unmarked (h c : Nat) (e : RepairEntry) : RepairEntry :=
  if e.head = h ∧ e.sewing = true then { e with sewing := false, fromIndex := Nat.max e.fromIndex c } else e

theorem RepairEntry.unmarked_head (h c : Nat) (e : RepairEntry) : (e.unmarked h c).head = e.head := by
  unfold RepairEntry.unmarked
  split <;> rfl

theorem RepairEntry.unmarked_other (c : Nat) {e : RepairEntry} (other : e.head ≠ h) : e.unmarked h c = e :=
  if_neg fun own => other own.1

theorem State.unmarkEntries_eq (s : State) (h : Nat) :
    s.unmarkEntries h = s.setRepairs (s.repairs.map (RepairEntry.unmarked h s.run.cursor)) := rfl

/-- An ACTIVE head that leaves ACTIVE in a REPAIR pass has its entries unmarked (R151). -/
theorem State.changeHead_leaves (active : (s.head h).state = .active) (leaves : st ≠ .active) (repair : s.run.pass = .repair) :
    s.changeHead h st cause = (s.unmarkEntries h).setHeadState h st cause := if_pos ⟨active, leaves, repair⟩

/-- Any other change of a head's state leaves the entries. -/
theorem State.changeHead_keeps (keeps : ¬ ((s.head h).state = .active ∧ st ≠ .active ∧ s.run.pass = .repair)) :
    s.changeHead h st cause = s.setHeadState h st cause := if_neg keeps

theorem State.head_changeHead_other (s : State) {h g : Nat} (st : HeadState) (cause : Option HeadCause) (other : g ≠ h) :
    (s.changeHead h st cause).head g = s.head g := by
  unfold State.changeHead
  split
  · rw [State.head_setHeadState_other _ _ _ other, State.unmarkEntries, State.setRepairs_head]
  · exact s.head_setHeadState_other _ _ other

theorem State.state_changeHead (s : State) (h : Nat) (st : HeadState) (cause : Option HeadCause) :
    ((s.changeHead h st cause).head h).state = st := by
  obtain ⟨r, q, l, o, e, state, -⟩ := s.changeHead_eq h st cause
  have head : (s.changeHead h st cause).head h = r := by
    rw [e]
    exact (State.head_putHead _ h h r).trans (if_pos rfl)
  rw [head, state]

theorem State.entriesOf_changeHead (s : State) {h g : Nat} (st : HeadState) (cause : Option HeadCause) (other : g ≠ h) :
    ((s.changeHead h st cause).entriesOf g).Perm (s.entriesOf g) := by
  unfold State.changeHead
  split
  · rw [State.entriesOf_setHeadState, State.unmarkEntries_eq]
    exact s.entriesOf_map_other (RepairEntry.unmarked_head h _) (fun e => RepairEntry.unmarked_other _) other
  · rw [State.entriesOf_setHeadState]

theorem State.head_setJoin (s : State) (h g : Nat) (j : Option Nat) : (s.setJoin h j).head g =
    if g = h then { s.head h with joinIndex := j } else s.head g := s.head_putHead h g _

theorem State.head_enterHead_other (s : State) {h g : Nat} (st : HeadState) (other : g ≠ h) :
    (s.enterHead h st).head g = s.head g := by
  unfold State.enterHead
  split
  · rfl
  · exact s.head_changeHead_other st none other

theorem State.state_enterHead (s : State) (h : Nat) (st : HeadState) : ((s.enterHead h st).head h).state = st := by
  unfold State.enterHead
  split
  · next already => exact already
  · exact s.state_changeHead h st none

theorem State.entriesOf_enterHead (s : State) {h g : Nat} (st : HeadState) (other : g ≠ h) :
    ((s.enterHead h st).entriesOf g).Perm (s.entriesOf g) := by
  unfold State.enterHead
  split
  · exact .refl _
  · exact s.entriesOf_changeHead st none other

/-! ### The least from-index above a cursor (R149) -/

theorem leastAbove_none {l : List RepairEntry} : leastAbove l h c = none ↔ ∀ e ∈ l, e.head = h → ¬ c < e.fromIndex := by
  simp only [leastAbove, List.min?_eq_none_iff, List.map_eq_nil_iff, List.filter_eq_nil_iff, Bool.and_eq_true,
    decide_eq_true_eq, not_and]

theorem leastAbove_some {l : List RepairEntry} {i : Nat} (least : leastAbove l h c = some i) :
    (∃ e ∈ l, e.head = h ∧ e.fromIndex = i ∧ c < e.fromIndex) ∧
    ∀ f ∈ l, f.head = h → c < f.fromIndex → i ≤ f.fromIndex := by
  have above : ∀ e, e ∈ l.filter (fun e => decide (e.head = h) && decide (c < e.fromIndex)) ↔
      e ∈ l ∧ e.head = h ∧ c < e.fromIndex := fun e => by
    rw [List.mem_filter, Bool.and_eq_true, decide_eq_true_eq, decide_eq_true_eq]
  obtain ⟨mem, below⟩ := List.min?_eq_some_iff.mp least
  obtain ⟨e, mem, same⟩ := List.mem_map.mp mem
  obtain ⟨listed, own, higher⟩ := (above e).mp mem
  exact ⟨⟨e, listed, own, same, higher⟩, fun f mem own higher =>
    below _ (List.mem_map.mpr ⟨f, (above f).mpr ⟨mem, own, higher⟩, rfl⟩)⟩

/-! ### Where R149 places a head -/

/-- An entry of the head begins at the executed cursor, or above it and no higher than the prepare cursor. -/
def State.sewsNear (s : State) (h : Nat) : Prop :=
  ∃ e ∈ s.entriesOf h, e.fromIndex = s.run.cursor ∨ s.run.cursor < e.fromIndex ∧ e.fromIndex ≤ s.seq.cursor

theorem State.sewsNear_iff : ((s.repairs.any fun e => decide (e.head = h) && decide (e.fromIndex = s.run.cursor)) ||
    s.repairs.any fun e => decide (e.head = h) && decide (s.run.cursor < e.fromIndex) && decide (e.fromIndex ≤ s.seq.cursor))
      = true ↔ s.sewsNear h := by
  simp only [Bool.or_eq_true, List.any_eq_true, Bool.and_eq_true, decide_eq_true_eq, State.sewsNear, State.mem_entriesOf]
  constructor
  · rintro (⟨e, mem, own, here⟩ | ⟨e, mem, ⟨own, above⟩, near⟩)
    · exact ⟨e, ⟨mem, own⟩, .inl here⟩
    · exact ⟨e, ⟨mem, own⟩, .inr ⟨above, near⟩⟩
  · rintro ⟨e, ⟨mem, own⟩, here | ⟨above, near⟩⟩
    · exact .inl ⟨e, mem, own, here⟩
    · exact .inr ⟨e, mem, ⟨own, above⟩, near⟩

theorem State.placeHead_holds (near : s.sewsNear h) (barred : s.barred h = true) :
    s.placeHead h = (s.enterHead h .heldNeedle).setJoin h none := by
  simp only [State.placeHead, if_pos (State.sewsNear_iff.mpr near), barred, if_true]

theorem State.placeHead_sews (near : s.sewsNear h) (free : s.barred h = false) :
    s.placeHead h = ((s.enterHead h .active).setJoin h (some s.run.cursor)).markEntries h s.run.cursor := by
  simp only [State.placeHead, if_pos (State.sewsNear_iff.mpr near), free, Bool.false_eq_true, if_false]

theorem State.placeHead_waits {i : Nat} (far : ¬ s.sewsNear h) (least : leastAbove s.repairs h s.run.cursor = some i) :
    s.placeHead h = (s.enterHead h .waiting).setJoin h (some i) := by
  simp only [State.placeHead, if_neg (State.sewsNear_iff.not.mpr far), least]

theorem State.placeHead_rests (far : ¬ s.sewsNear h) (none : leastAbove s.repairs h s.run.cursor = none) :
    s.placeHead h = (s.enterHead h .resting).setJoin h .none := by
  simp only [State.placeHead, if_neg (State.sewsNear_iff.not.mpr far), none]

/-- The four ends of the placing of a head. -/
theorem State.placeHead_cases (s : State) (h : Nat) : ∃ st j, s.placeHead h = (s.enterHead h st).setJoin h j ∨
    s.placeHead h = ((s.enterHead h st).setJoin h j).markEntries h s.run.cursor := by
  by_cases near : s.sewsNear h
  · cases barred : s.barred h with
    | true => exact ⟨_, _, .inl (State.placeHead_holds near barred)⟩
    | false => exact ⟨_, _, .inr (State.placeHead_sews near barred)⟩
  · cases least : leastAbove s.repairs h s.run.cursor with
    | none => exact ⟨_, _, .inl (State.placeHead_rests near least)⟩
    | some i => exact ⟨_, _, .inl (State.placeHead_waits near least)⟩

theorem State.head_placeHead_other (s : State) (h g : Nat) (other : g ≠ h) : (s.placeHead h).head g = s.head g := by
  have entered : ∀ st j, ((s.enterHead h st).setJoin h j).head g = s.head g := fun st j => by
    rw [State.head_setJoin, if_neg other, s.head_enterHead_other st other]
  obtain ⟨st, j, placed | placed⟩ := s.placeHead_cases h
  · rw [placed, entered]
  · rw [placed, State.markEntries, State.setRepairs_head, entered]

theorem State.entriesOf_placeHead (s : State) {h g : Nat} (other : g ≠ h) :
    ((s.placeHead h).entriesOf g).Perm (s.entriesOf g) := by
  have entered : ∀ st j, (((s.enterHead h st).setJoin h j).entriesOf g).Perm (s.entriesOf g) := fun st j =>
    s.entriesOf_enterHead st other
  obtain ⟨st, j, placed | placed⟩ := s.placeHead_cases h
  · rw [placed]
    exact entered st j
  · rw [placed]
    exact (State.entriesOf_markEntries _ _ other).trans (entered st j)

/-! ### The outstanding-repairs flag (R71) -/

/-- A clear outstanding-repairs flag stays clear. -/
def State.StaysSettled (s t : State) : Prop := s.run.outstanding = false → t.run.outstanding = false

theorem State.StaysSettled.refl (s : State) : s.StaysSettled s := id

theorem State.StaysSettled.trans (h : s.StaysSettled t) (g : t.StaysSettled u) : s.StaysSettled u := fun clear => g (h clear)

theorem State.StaysSettled.setRepairs (s : State) (l : List RepairEntry) : s.StaysSettled (s.setRepairs l) := fun clear => by
  rw [State.setRepairs_eq, State.withRun_run, clear, ite_self]

theorem State.StaysSettled.setHeadState (s : State) (h : Nat) (st : HeadState) (cause : Option HeadCause) :
    s.StaysSettled (s.setHeadState h st cause) := fun clear => by
  obtain ⟨r, q, e, -⟩ := s.setHeadState_eq h st cause
  rw [e]
  exact clear

theorem State.StaysSettled.enterHead (s : State) (h : Nat) (st : HeadState) : s.StaysSettled (s.enterHead h st) := by
  unfold State.enterHead State.changeHead
  split
  · exact .refl s
  · split
    · exact (State.StaysSettled.setRepairs s _).trans (.setHeadState _ h st none)
    · exact .setHeadState s h st none

theorem State.StaysSettled.placeHead (s : State) (h : Nat) : s.StaysSettled (s.placeHead h) := by
  obtain ⟨st, j, placed | placed⟩ := s.placeHead_cases h
  · rw [placed]
    exact .enterHead s h st
  · rw [placed]
    exact State.StaysSettled.trans (t := (s.enterHead h st).setJoin h j) (.enterHead s h st) (.setRepairs _ _)

end Sys2Proof.Machine
end

section
/-! PROOF. O40: the placing of every head at the end of the walk of REPAIR (R149), REPAIR and the walk it starts (R148). -/

namespace Sys2Proof.Machine

open Sys2Proof

variable {s t u v : State} {w : WalkRecord} {x : StoreRead} {cause : WalkEnd} {port : Port} {h g c : Nat}

/-! ### Every head placed (R149) -/

/-- Where R149 places a head at executed cursor `c`, by the entries it had in `s`. -/
def State.Placed (s t : State) (c h : Nat) : Prop :=
  let mine := s.entriesOf h
  if (s.head h).state = .absent ∨ (s.head h).state = .lost ∨ (s.head h).state = .heldOperator then
    (t.head h).state = (s.head h).state ∧ (t.head h).joinIndex = none
  else if ∃ e ∈ mine, e.fromIndex = c then
    if s.barred h = true then (t.head h).state = .heldNeedle ∧ (t.head h).joinIndex = none
    else (t.head h).state = .active ∧ (t.head h).joinIndex = some c ∧
      ∀ e ∈ t.repairs, e.head = h → e.fromIndex = c → e.sewing = true
  else if ∃ e ∈ mine, c < e.fromIndex then
    (t.head h).state = .waiting ∧ ∃ e ∈ mine, (t.head h).joinIndex = some e.fromIndex ∧ c < e.fromIndex ∧
      ∀ f ∈ mine, c < f.fromIndex → e.fromIndex ≤ f.fromIndex
  else (t.head h).state = .resting ∧ (t.head h).joinIndex = none

/-- Entries that begin at the same indices meet the same tests of their from-indices. -/
theorem exists_from_iff {l m : List RepairEntry} (starts : (l.map (·.fromIndex)).Perm (m.map (·.fromIndex)))
    (p : Nat → Prop) :
    (∃ e ∈ l, p e.fromIndex) ↔ ∃ e ∈ m, p e.fromIndex := by
  have indexed : ∀ k : List RepairEntry, (∃ e ∈ k, p e.fromIndex) ↔ ∃ i ∈ k.map (·.fromIndex), p i := fun k => by
    simp only [List.mem_map, exists_exists_and_eq_and]
  rw [indexed, indexed]
  simp only [starts.mem_iff]

/-- What is found of a head and where its entries begin, and what is left of both. -/
theorem State.Placed.congr (placed : s.Placed t c h) (found : s.head h = u.head h)
    (starts : ((s.entriesOf h).map (·.fromIndex)).Perm ((u.entriesOf h).map (·.fromIndex)))
    (barred : s.barred h = u.barred h) (left : v.head h = t.head h) (listed : (v.entriesOf h).Perm (t.entriesOf h)) :
    u.Placed v c h := by
  have begins := exists_from_iff starts (· = c)
  have above := exists_from_iff starts (c < ·)
  unfold State.Placed at placed ⊢
  dsimp only at placed ⊢
  rw [found, barred, ← left] at placed
  split
  · next out => rw [if_pos out] at placed; exact placed
  · next here =>
    rw [if_neg here] at placed
    split
    · next sews =>
      rw [if_pos (begins.mpr sews)] at placed
      split
      · next held => rw [if_pos held] at placed; exact placed
      · next free =>
        rw [if_neg free] at placed
        obtain ⟨active, join, marked⟩ := placed
        exact ⟨active, join, fun e mem own => marked e ((State.mem_of_entriesOf listed own).mp mem) own⟩
    · next far =>
      rw [if_neg (begins.not.mpr far)] at placed
      split
      · next later =>
        rw [if_pos (above.mpr later)] at placed
        obtain ⟨waiting, first⟩ := placed
        obtain ⟨e, mem, join, higher, least⟩ := (exists_from_iff starts fun i => (v.head h).joinIndex = some i ∧ c < i ∧
          ∀ f ∈ s.entriesOf h, c < f.fromIndex → i ≤ f.fromIndex).mp first
        refine ⟨waiting, e, mem, join, higher, fun f listed higher => ?_⟩
        obtain ⟨d, mem, same⟩ := (exists_from_iff starts (· = f.fromIndex)).mpr ⟨f, listed, rfl⟩
        exact same ▸ least d mem (same ▸ higher)
      · next none => rw [if_neg (above.not.mpr none)] at placed; exact placed

/-- The visit of one head by the placing. -/
def State.placeOne (s : State) (h : Nat) : State :=
  if (s.head h).state = .absent ∨ (s.head h).state = .lost ∨ (s.head h).state = .heldOperator then s.setJoin h none
  else s.placeHead h

theorem State.placeAll_eq (s : State) : s.placeAll = headNumbers.foldl State.placeOne s := by
  unfold State.placeAll
  congr 1
  funext t h
  unfold State.placeOne
  split
  · next absent => rw [if_pos (.inl absent)]
  · next lost => rw [if_pos (.inr (.inl lost))]
  · next off => rw [if_pos (.inr (.inr off))]
  · next absent lost off => rw [if_neg (by rintro (a | b | c); exacts [absent a, lost b, off c])]

theorem State.OnlyHeads.placeOne (s : State) (h : Nat) : s.OnlyHeads (s.placeOne h) := by
  unfold State.placeOne
  split
  · exact .setJoin s h none
  · exact .placeHead s h

theorem State.StaysSettled.placeAll (s : State) : s.StaysSettled s.placeAll := by
  rw [State.placeAll_eq]
  refine State.foldl_keeps State.StaysSettled.refl State.StaysSettled.trans (fun t h => ?_) headNumbers s
  unfold State.placeOne
  split
  · exact id
  · exact .placeHead t h

theorem State.head_placeOne_other (s : State) (h g : Nat) (other : g ≠ h) : (s.placeOne h).head g = s.head g := by
  unfold State.placeOne
  split
  · rw [State.head_setJoin, if_neg other]
  · exact s.head_placeHead_other h g other

theorem State.entriesOf_placeOne (s : State) {h g : Nat} (other : g ≠ h) :
    ((s.placeOne h).entriesOf g).Perm (s.entriesOf g) := by
  unfold State.placeOne
  split
  · exact .refl _
  · exact s.entriesOf_placeHead other

/-- One visit, where the two cursors stand together: no entry begins between them. -/
theorem State.placed_placeOne (together : s.seq.cursor = s.run.cursor) (h : Nat) :
    s.Placed (s.placeOne h) s.run.cursor h := by
  have near : s.sewsNear h ↔ ∃ e ∈ s.entriesOf h, e.fromIndex = s.run.cursor := by
    simp only [State.sewsNear, together]
    exact exists_congr fun e => and_congr_right fun _ => or_iff_left fun between => by omega
  have entered : ∀ st j, (((s.enterHead h st).setJoin h j).head h).state = st ∧
      (((s.enterHead h st).setJoin h j).head h).joinIndex = j := fun st j => by
    rw [State.head_setJoin, if_pos rfl]
    exact ⟨s.state_enterHead h st, rfl⟩
  unfold State.Placed State.placeOne
  dsimp only
  split
  · rw [State.head_setJoin, if_pos rfl]
    exact ⟨rfl, rfl⟩
  · split
    · next sews =>
      split
      · next held =>
        rw [State.placeHead_holds (near.mpr sews) held]
        exact entered _ _
      · next free =>
        rw [State.placeHead_sews (near.mpr sews) (Bool.not_eq_true _ ▸ free)]
        refine ⟨?_, ?_, State.sewing_markEntries _ h _⟩
        · rw [State.markEntries, State.setRepairs_head]; exact (entered _ _).1
        · rw [State.markEntries, State.setRepairs_head]; exact (entered _ _).2
    · next far =>
      split
      · next later =>
        obtain ⟨e, mem, above⟩ := later
        obtain ⟨listed, own⟩ := State.mem_entriesOf.mp mem
        cases least : leastAbove s.repairs h s.run.cursor with
        | none => exact absurd above (leastAbove_none.mp least e listed own)
        | some i =>
          obtain ⟨⟨f, listed, own, rfl, higher⟩, below⟩ := leastAbove_some least
          rw [State.placeHead_waits (near.not.mpr far) least]
          refine ⟨(entered _ _).1, f, State.mem_entriesOf.mpr ⟨listed, own⟩, (entered _ _).2, higher, fun d mem => ?_⟩
          obtain ⟨listed, own⟩ := State.mem_entriesOf.mp mem
          exact below d listed own
      · next none =>
        rw [State.placeHead_rests (near.not.mpr far) (leastAbove_none.mpr fun e mem own above =>
          none ⟨e, State.mem_entriesOf.mpr ⟨mem, own⟩, above⟩)]
        exact entered _ _

/-- Visits of other heads leave the entries of a head. -/
theorem State.entriesOf_foldl {f : State → Nat → State}
    (other : ∀ (t : State) {h g : Nat}, g ≠ h → ((f t h).entriesOf g).Perm (t.entriesOf g)) (s : State) {l : List Nat}
    (out : h ∉ l) : ((l.foldl f s).entriesOf h).Perm (s.entriesOf h) := by
  induction l generalizing s with
  | nil => exact .refl _
  | cons g rest ih =>
    rw [List.mem_cons, not_or] at out
    exact (ih (f s g) out.2).trans (other s out.1)

theorem State.placed_placeAll (together : s.seq.cursor = s.run.cursor) (mem : h ∈ headNumbers) :
    s.Placed s.placeAll s.run.cursor h := by
  obtain ⟨pre, post, split, before, after, found, left⟩ :=
    State.head_foldl_of_mem State.head_placeOne_other s headNumbers_nodup mem
  have only : s.OnlyHeads (pre.foldl State.placeOne s) := .foldl State.OnlyHeads.placeOne pre s
  have entries := State.entriesOf_foldl State.entriesOf_placeOne s before
  have ending : s.placeAll = post.foldl State.placeOne ((pre.foldl State.placeOne s).placeOne h) := by
    rw [State.placeAll_eq, split, List.foldl_append, List.foldl_cons]
  rw [← State.placeAll_eq] at left
  generalize pre.foldl State.placeOne s = u at *
  have cursors : u.seq.cursor = u.run.cursor := by
    rw [only.cursor, ← together]
    exact (congrArg (fun v : State => v.seq.cursor) only.eq).trans rfl
  have placed := State.placed_placeOne cursors h
  rw [only.cursor] at placed
  refine placed.congr found (entries.map _) (only.barred h) left ?_
  rw [ending]
  exact State.entriesOf_foldl State.entriesOf_placeOne _ after

/-! ### The end of a walk of REPAIR (R99, R149) -/

/-- The point that a walk hands over, wherever it ends (R99). -/
theorem State.endWalk_point (s : State) (w : WalkRecord) (cause : WalkEnd) :
    (s.endWalk w cause).walk = none ∧ (s.endWalk w cause).run.cursor = w.cursor ∧
    (s.endWalk w cause).run.colourBlock = w.colourBlock ∧ (s.endWalk w cause).run.pass = s.run.pass := by
  obtain ⟨u, only, ended⟩ := s.endWalk_eq w cause
  obtain ⟨q, posts⟩ := u.post_eq .walkDone 0 (walkParam w.cursor cause)
  obtain ⟨a, drops⟩ := s.dropRead_eq .walk
  have still : (u.post .walkDone 0 (walkParam w.cursor cause)).run.state ≠ .running := by
    rw [State.post_run, only.run]
    exact State.takeWalk_still _ w
  obtain ⟨st, v, finished⟩ := State.finishEmptied_eq _ w still
  have taken := only.eq
  rw [drops] at taken
  rw [ended, finished, posts]
  exact ⟨(congrArg State.walk taken).trans rfl, (congrArg (fun v : State => v.run.cursor) taken).trans rfl,
    (congrArg (fun v : State => v.run.colourBlock) taken).trans rfl, (congrArg (fun v : State => v.run.pass) taken).trans rfl⟩

/-- WALK_DONE and the end of an emptied pass leave the heads and the Repair List. -/
theorem State.endWalk_noSkips_heads (s : State) (cause : WalkEnd) (noSkips : w.deferredSkips = []) :
    (s.endWalk w cause).heads = (((s.dropRead .walk).takeWalk w).headsSeen w.requester).heads ∧
    (s.endWalk w cause).repairs = (((s.dropRead .walk).takeWalk w).headsSeen w.requester).repairs := by
  have heads := State.OnlyHeads.headsSeen ((s.dropRead .walk).takeWalk w) w.requester
  have still : (((s.dropRead .walk).takeWalk w).headsSeen w.requester).run.state ≠ .running := by
    rw [heads.run]
    exact State.takeWalk_still _ w
  rw [State.endWalk_noSkips s cause noSkips]
  generalize ((s.dropRead .walk).takeWalk w).headsSeen w.requester = p at still
  obtain ⟨q, posts⟩ := p.post_eq .walkDone 0 (walkParam w.cursor cause)
  obtain ⟨st, v, finished⟩ := State.finishEmptied_eq (p.post .walkDone 0 (walkParam w.cursor cause)) w
    (by rw [State.post_run]; exact still)
  rw [finished, posts]
  exact ⟨rfl, rfl⟩

theorem State.StaysSettled.headsSeen (s : State) (q : WalkRequester) : s.StaysSettled (s.headsSeen q) := by
  cases q with
  | walk => exact .refl s
  | repair => exact .placeAll s

theorem State.StaysSettled.endWalk (s : State) (cause : WalkEnd) (noSkips : w.deferredSkips = [])
    (listed : w.listEmptied = false) : s.StaysSettled (s.endWalk w cause) := fun clear => by
  rw [State.endWalk_noSkips s cause noSkips, State.finishEmptied_unlisted _ listed, State.post_run]
  obtain ⟨a, drops⟩ := s.dropRead_eq .walk
  rw [drops]
  exact State.StaysSettled.headsSeen _ w.requester clear

theorem State.placed_endWalk (cause : WalkEnd) (repairer : w.requester = .repair) (noSkips : w.deferredSkips = [])
    (mem : h ∈ headNumbers) : s.Placed (s.endWalk w cause) w.cursor h := by
  obtain ⟨heads, repairs⟩ := s.endWalk_noSkips_heads cause noSkips
  obtain ⟨a, drops⟩ := s.dropRead_eq .walk
  rw [repairer, drops] at heads repairs
  refine (State.placed_placeAll (s := (s.withArbiter a).takeWalk w) rfl mem).congr rfl (.refl _) rfl
    (State.head_congr heads h) (.of_eq ?_)
  rw [State.entriesOf, repairs]
  rfl

/-! ### REPAIR (R148) -/

theorem leastFrom_eq {l : List RepairEntry} {least : Nat} (begins : ∃ e ∈ l, e.fromIndex = least)
    (below : ∀ e ∈ l, least ≤ e.fromIndex) : leastFrom l = least := by
  obtain ⟨e, mem, here⟩ := begins
  have min : (l.map (·.fromIndex)).min? = some least := List.min?_eq_some_iff.mpr
    ⟨List.mem_map.mpr ⟨e, mem, here⟩, fun n listed => by
      obtain ⟨f, mem, rfl⟩ := List.mem_map.mp listed
      exact below f mem⟩
  rw [leastFrom, min, Option.getD_some]

/-- An entry as REPAIR finds it: neither being sewn nor deferred. -/
def RepairEntry.anew (e : RepairEntry) : RepairEntry := { e with sewing := false, deferred := none }

/-- The state in which the walk of REPAIR takes its first step. -/
def State.repairBegun (s : State) : State := { s with
  run := { s.run with state := .walking, pass := .repair, outstanding := false },
  repairs := s.repairs.map RepairEntry.anew }

/-- The walk record of REPAIR toward a goal. -/
def State.repairWalk (s : State) (goal : Nat) : WalkRecord :=
  { requester := .repair, mode := .toIndex, goal := goal, direction := indexDirection goal s.run.cursor,
    cursor := s.run.cursor, design := s.run.design, colourBlock := s.run.colourBlock, stitches := 0, deferredSkips := [],
    listEmptied := false }

theorem State.takeRepair_eq (still : s.run.state ≠ .running) : s.takeRepair =
    s.repairBegun.advanceWalk (s.repairWalk (Nat.min (leastFrom s.repairs) (s.designLength - 1))) := by
  let begun := (s.withRun { s.run with pass := .repair, outstanding := false }).withRepairs
    (s.repairs.map RepairEntry.anew)
  have starts := begun.setRunState_of_not_running .walking still
  exact congrArg (State.advanceWalk · (s.repairWalk (Nat.min (leastFrom s.repairs) (s.designLength - 1)))) starts

theorem State.repairRun_eq (s : State) : s.repairRun =
    if s.scan.isSome = true ∨ s.run.state = .arming ∨ s.run.state = .walking then s.refuse .p .busy
    else if s.run.state ≠ .paused ∧ s.run.state ≠ .finished then s.refuse .p .state
    else if s.repairs = [] then s.refuse .p .state
    else s.takeRepair.reply .p .accepted [] := by
  simp only [State.repairRun, State.operationInProgress_iff]

theorem State.advanceWalk_portP (s : State) (w : WalkRecord) : (s.advanceWalk w).portP = s.portP := by
  cases next : w.next s.designLength with
  | ends cause =>
    rw [State.advanceWalk_endWalk next]
    exact (s.endWalk_ports w cause).1
  | reads i =>
    obtain ⟨a, asks⟩ := (s.withWalk (some w)).askRead_eq .walk (s.walkRead i)
    rw [State.advanceWalk_reads next, asks]
    rfl

/-- The pass begun leaves where the entries of a head begin. -/
theorem State.starts_repairBegun (s : State) (h : Nat) :
    (s.repairBegun.entriesOf h).map (·.fromIndex) = (s.entriesOf h).map (·.fromIndex) := by
  rw [State.entriesOf, State.repairBegun, filter_head_map (f := RepairEntry.anew) fun _ => rfl, List.map_map]
  rfl

/-- The walk of REPAIR that stands on its goal ends at once, and every head is placed. -/
theorem State.repairStarted_ends {goal : Nat} (here : goal = s.run.cursor) :
    let t := s.repairBegun.advanceWalk (s.repairWalk goal)
    t.walk = none ∧ t.run.cursor = goal ∧ t.run.state = (if goal = s.designLength then .finished else .paused) ∧
    t.run.pass = .repair ∧ t.run.outstanding = false ∧ (∀ h ∈ headNumbers, s.Placed t goal h) ∧
    t.posted [(.walkDone, 0, walkParam goal .target)] := by
  have ends : (s.repairWalk goal).next s.repairBegun.designLength = .ends .target :=
    (WalkRecord.next_toIndex _ rfl).trans (if_pos here.symm)
  have cursor : (s.repairWalk goal).cursor = goal := here.symm
  obtain ⟨walk, run, -, -, posted⟩ := State.endWalk_leaves (s := s.repairBegun) (w := s.repairWalk goal) .target rfl
  dsimp only
  rw [State.advanceWalk_endWalk ends]
  rw [cursor] at run posted
  refine ⟨walk, ?_, ?_, ?_, ?_, fun h mem => ?_, posted⟩
  · rw [run]
  · rw [run]
    rfl
  · rw [run]
    rfl
  · exact State.StaysSettled.endWalk s.repairBegun .target rfl rfl rfl
  · have placed : s.repairBegun.Placed _ _ h :=
      State.placed_endWalk (s := s.repairBegun) (w := s.repairWalk goal) .target rfl rfl mem
    rw [cursor] at placed
    exact placed.congr rfl (.of_eq (s.starts_repairBegun h)) rfl rfl (.refl _)

/-- The walk of REPAIR that reads first leaves its record and its request. -/
theorem State.repairStarted_reads {goal : Nat} (away : goal ≠ s.run.cursor) :
    let t := s.repairBegun.advanceWalk (s.repairWalk goal)
    t = { s.repairBegun with arbiter := t.arbiter, walk := some (s.repairWalk goal) } := by
  have next : ∃ i, (s.repairWalk goal).next s.repairBegun.designLength = .reads i := by
    have apart : (s.repairWalk goal).cursor ≠ (s.repairWalk goal).goal := away.symm
    rw [WalkRecord.next_toIndex _ rfl, if_neg apart]
    split
    · exact ⟨_, rfl⟩
    · exact ⟨_, rfl⟩
  obtain ⟨i, reads⟩ := next
  obtain ⟨a, asks⟩ := (s.repairBegun.withWalk (some (s.repairWalk goal))).askRead_eq .walk (s.repairBegun.walkRead i)
  dsimp only
  rw [State.advanceWalk_reads reads, asks]
  rfl

/-! ### O40 -/

/-- The read of a walk of REPAIR that reaches its goal, or that finds two changed bits, ends it (R97, R101). -/
theorem State.walkExamined_repair (repairer : w.requester = .repair) (mode : w.mode = .toIndex)
    (noSkips : w.deferredSkips = []) :
    ((s.chunk x.chunk).changed = [] → w.goal = (if w.direction = .back then w.cursor - 1 else w.cursor + 1) →
      (s.walkExamined w x).walk = none ∧ (s.walkExamined w x).run.cursor = w.goal ∧
      ∀ h ∈ headNumbers, s.Placed (s.walkExamined w x) w.goal h) ∧
    ((s.chunk x.chunk).state = .complete → (s.chunk x.chunk).changed.length = 2 →
      (s.walkExamined w x).walk = none ∧ (s.walkExamined w x).run.cursor = w.cursor ∧
      ∀ h ∈ headNumbers, s.Placed (s.walkExamined w x) w.cursor h) := by
  have ended : ∀ (p : State) (v : WalkRecord) (cause : WalkEnd), p.heads = s.heads → p.repairs = s.repairs →
      (∀ h, p.barred h = s.barred h) → v.requester = .repair → v.deferredSkips = [] →
      (p.endWalk v cause).walk = none ∧ (p.endWalk v cause).run.cursor = v.cursor ∧
      ∀ h ∈ headNumbers, s.Placed (p.endWalk v cause) v.cursor h := by
    intro p v cause heads repairs barred repairer noSkips
    obtain ⟨walk, cursor, -⟩ := p.endWalk_point v cause
    refine ⟨walk, cursor, fun h mem => ?_⟩
    refine (State.placed_endWalk (s := p) cause repairer noSkips mem).congr (State.head_congr heads h) ?_ (barred h) rfl (.refl _)
    rw [State.entriesOf, repairs]
    rfl
  refine ⟨fun clean reaches => ?_, fun complete two => ?_⟩
  · rw [State.walkExamined_clean clean]
    generalize (s.chunk x.chunk).contents.getD (x.index % 4) endOfDesign = r
    let v := if w.direction = .back then w.stepBack r else w.stepForward r
    have steps : w.StepsTo v ∧ v.cursor = w.goal := by
      rw [reaches]
      unfold v
      split
      · exact ⟨w.stepsTo_stepBack r, by rw [w.stepBack_eq]⟩
      · exact ⟨w.stepsTo_stepForward r, by rw [w.stepForward_eq]⟩
    obtain ⟨⟨c, d, b, n, same⟩, there⟩ := steps
    have ends : v.next (s.endAccess .walk).designLength = .ends .target := by
      rw [WalkRecord.next_toIndex _ (by rw [same]; exact mode), there, same, if_pos rfl]
    rw [State.walkRecord_goesOn (WalkRecord.meet_toIndex mode), State.advanceWalk_endWalk ends, ← there]
    exact ended _ v .target rfl rfl (fun _ => rfl) (by rw [same]; exact repairer) (by rw [same]; exact noSkips)
  · obtain ⟨f, q, e, faulted, -⟩ := (s.endAccess .walk).walkFaulted_eq w x
    rw [State.walkExamined_uncorrectable complete two, State.walkFault_eq, faulted]
    exact ended _ w .memory rfl rfl (fun _ => rfl) repairer noSkips

/-- A walk that does not stand on its goal goes up or down (R95). -/
theorem indexDirection_away {goal cursor : Nat} (away : goal ≠ cursor) :
    indexDirection goal cursor = if goal < cursor then .back else .forward := by
  unfold indexDirection
  split
  · rfl
  · next up => exact if_pos (by omega)

/-- The frame of REPAIR and its reply leave what the pass is begun with. -/
theorem State.repairStarted_replied (s : State) (goal : Nat) {t : State}
    (ran : t = (s.framed.repairBegun.advanceWalk (s.framed.repairWalk goal)).reply .p .accepted []) :
    t.run.pass = .repair ∧ t.run.outstanding = false ∧
    (goal ≠ s.run.cursor →
      t = { s with
        portP := t.portP, arbiter := t.arbiter, walk := t.walk,
        run := { s.run with state := .walking, pass := .repair, outstanding := false },
        repairs := s.repairs.map RepairEntry.anew } ∧
      t.walk = some { s.repairWalk goal with direction := if goal < s.run.cursor then .back else .forward }) ∧
    (goal = s.run.cursor → t.walk = none ∧ t.run.cursor = goal ∧
      t.run.state = (if goal = s.designLength then .finished else .paused) ∧ (∀ h ∈ headNumbers, s.Placed t goal h) ∧
      t.posted [(.walkDone, 0, walkParam goal .target)]) := by
  obtain ⟨p, replied⟩ : ∃ p, (s.framed.repairBegun.advanceWalk (s.framed.repairWalk goal)).reply .p .accepted [] =
      { s.framed.repairBegun.advanceWalk (s.framed.repairWalk goal) with portP := p } := ⟨_, rfl⟩
  rw [replied] at ran
  by_cases here : goal = s.run.cursor
  · obtain ⟨walk, cursor, state, pass, settled, placed, posted⟩ := s.framed.repairStarted_ends here
    generalize s.framed.repairBegun.advanceWalk (s.framed.repairWalk goal) = u at *
    subst ran
    exact ⟨pass, settled, fun away => absurd here away, fun _ => ⟨walk, cursor, state,
      fun h mem => (placed h mem).congr rfl (.refl _) rfl rfl (.refl _), posted.congr rfl rfl⟩⟩
  · have reads := s.framed.repairStarted_reads here
    dsimp only at reads
    generalize s.framed.repairBegun.advanceWalk (s.framed.repairWalk goal) = u at *
    rw [reads] at ran
    have walk : t.walk = some (s.repairWalk goal) := by rw [ran]; rfl
    refine ⟨by rw [ran]; rfl, by rw [ran]; rfl, fun _ => ⟨by rw [ran]; rfl, ?_⟩, fun same => absurd same here⟩
    rw [walk, State.repairWalk, indexDirection_away here]

/-- Settles O40: REPAIR through its tests and its frame, and the heads placed at each end of its walk. -/
theorem repairStartsPass : Obligations.RepairStartsPass := by
  unfold Obligations.RepairStartsPass
  intro placed
  refine ⟨fun s takes => ⟨_, rfl, ?_⟩, fun s w port takes walking walk repairer noSkips pass => ⟨_, rfl, ?_⟩,
    fun s w x power walking walk repairer mode noSkips pass holder served complete => ?_⟩
  · refine State.refused_or takes s.framed.repairRun_eq fun free tested => ?_
    refine State.refused_or takes tested fun stands tested => State.refused_or takes tested fun some taken => ?_
    have still : s.run.state ≠ .running := fun running => stands ⟨by rw [running]; nofun, by rw [running]; nofun⟩
    rw [State.takeRepair_eq (s := s.framed) still] at taken
    obtain ⟨ran, answers⟩ := State.replied_onFrame (body := State.repairRun) takes taken (State.advanceWalk_portP _ _)
    rw [← ran] at answers
    obtain ⟨pass, settled, -⟩ := s.repairStarted_replied _ ran
    refine ⟨answers, pass, settled, fun least begins below => ?_⟩
    have first : leastFrom s.framed.repairs = least := leastFrom_eq begins below
    rw [first] at ran
    obtain ⟨-, -, reads, ends⟩ := s.repairStarted_replied _ ran
    refine ⟨reads, fun here => ?_⟩
    obtain ⟨walk, cursor, state, heads, posted⟩ := ends here
    rw [walkParam_eq, WalkEnd.code, Nat.zero_mul, Nat.zero_add] at posted
    exact ⟨walk, cursor, state, heads, posted⟩
  · rw [State.onFrame_taken s port _ takes]
    obtain ⟨a, p, m, framed⟩ := s.framedOn_eq port
    have stops : (s.framedOn port).stopRun port = (s.framedOn port).endWalk w .stop :=
      State.stopRun_walking (by rw [framed]; exact walking) (by rw [framed]; exact walk)
    change ((((s.framedOn port).stopRun port).reply port .ok []).walk = none ∧
      (((s.framedOn port).stopRun port).reply port .ok []).run.cursor = w.cursor ∧
      placed s (((s.framedOn port).stopRun port).reply port .ok []) w.cursor)
    obtain ⟨p', m', replied⟩ := ((s.framedOn port).endWalk w .stop).reply_ports port .ok []
    rw [stops, replied]
    obtain ⟨ended, cursor, -⟩ := (s.framedOn port).endWalk_point w .stop
    refine ⟨ended, cursor, fun h mem => ?_⟩
    have seen : s.Placed ((s.framedOn port).endWalk w .stop) w.cursor h := by
      refine (State.placed_endWalk (s := s.framedOn port) .stop repairer noSkips mem).congr ?_ ?_ ?_ rfl (.refl _)
      · rw [framed]; rfl
      · rw [framed]; rfl
      · rw [framed]; rfl
    exact seen
  · obtain ⟨reaches, faults⟩ := State.walkExamined_repair (s := s) (x := x) repairer mode noSkips
    exact ⟨_, exec_walkReadDone power holder served walk, reaches, faults complete⟩

end Sys2Proof.Machine
end

section
/-! PROOF. O50: the SKIP entry a head is handed (R111, R146), SET_INHIBIT (R116), and the entries made when a walk ends (R99). -/

namespace Sys2Proof.Machine

open Sys2Proof

variable {s t u : State} {w : WalkRecord} {h g c b : Nat} {full : Prop} {l m : List RepairEntry}

/-! ### The SKIP entry of a head (R111, R146) -/

/-- A SKIP entry of a head that ends just before an index. -/
def RepairEntry.endsBefore (h c : Nat) (e : RepairEntry) : Bool :=
  decide (e.head = h) && e.isSkip && (match e.toIndex with | some t => decide (t + 1 = c) | none => false)

/-- A SKIP entry of a head that is open on a colour block. -/
def RepairEntry.openOn (h b : Nat) (e : RepairEntry) : Bool :=
  decide (e.head = h) && e.isSkip && decide (e.toIndex = none) && decide (e.toBlock = some b)

theorem RepairEntry.endsBefore_iff {e : RepairEntry} :
    e.endsBefore h c = true ↔ (e.head = h ∧ e.isSkip = true) ∧ ∃ i, e.toIndex = some i ∧ i + 1 = c := by
  rw [RepairEntry.endsBefore, Bool.and_eq_true, Bool.and_eq_true, decide_eq_true_eq]
  refine and_congr_right fun _ => ?_
  cases e.toIndex with
  | none => exact ⟨nofun, nofun⟩
  | some i => exact ⟨fun just => ⟨i, rfl, of_decide_eq_true just⟩, fun ⟨_, rfl, just⟩ => decide_eq_true just⟩

theorem RepairEntry.openOn_iff {e : RepairEntry} :
    e.openOn h b = true ↔ (e.head = h ∧ e.isSkip = true) ∧ e.toIndex = none ∧ e.toBlock = some b := by
  simp only [RepairEntry.openOn, Bool.and_eq_true, decide_eq_true_eq, and_assoc]

/-- The change that extends an entry to a colour block. -/
def RepairEntry.extended (b : Nat) (e : RepairEntry) : RepairEntry := { e with toBlock := some b, toIndex := none }

/-- The change that takes an entry back to an index. -/
def RepairEntry.takenBack (c : Nat) (e : RepairEntry) : RepairEntry := { e with fromIndex := min e.fromIndex c }

theorem State.skipEntry_extends (ends : ∃ e ∈ s.repairs, e.endsBefore h s.run.cursor = true) : s.skipEntry h =
    (s.setRepairs (changeFirst (RepairEntry.endsBefore h s.run.cursor) (RepairEntry.extended s.run.colourBlock) s.repairs),
      true) := if_pos (List.any_eq_true.mpr ends)

theorem State.skipEntry_takesBack (apart : ¬ ∃ e ∈ s.repairs, e.endsBefore h s.run.cursor = true)
    (opens : ∃ e ∈ s.repairs, e.openOn h s.run.colourBlock = true) : s.skipEntry h =
    (s.setRepairs (changeFirst (RepairEntry.openOn h s.run.colourBlock) (RepairEntry.takenBack s.run.cursor) s.repairs),
      true) := (if_neg (List.any_eq_true.not.mpr apart)).trans (if_pos (List.any_eq_true.mpr opens))

theorem State.skipEntry_places (apart : ¬ ∃ e ∈ s.repairs, e.endsBefore h s.run.cursor = true)
    (closed : ¬ ∃ e ∈ s.repairs, e.openOn h s.run.colourBlock = true) : s.skipEntry h =
    if s.skips < 24 then (s.setRepairs (s.newSkip h :: s.repairs), true) else (s, false) :=
  (if_neg (List.any_eq_true.not.mpr apart)).trans (if_neg (List.any_eq_true.not.mpr closed))

/-- A list in which a test finds one entry at the most has that entry changed. -/
theorem changeFirst_eq_map {p : RepairEntry → Bool} (f : RepairEntry → RepairEntry) (one : (l.filter p).length ≤ 1) :
    changeFirst p f l = l.map fun e => if p e = true then f e else e := by
  induction l with
  | nil => rfl
  | cons e rest ih =>
    unfold changeFirst
    rw [List.map_cons]
    split
    · next first =>
      rw [List.filter_cons_of_pos first, List.length_cons] at one
      have none : rest.filter p = [] := List.eq_nil_of_length_eq_zero (by omega)
      refine congrArg (f e :: ·) (Eq.symm ((List.map_congr_left fun x mem => ?_).trans rest.map_id))
      exact if_neg (List.filter_eq_nil_iff.mp none x mem)
    · next other =>
      rw [List.filter_cons_of_neg other] at one
      rw [ih one]

theorem changeFirst_perm {p : RepairEntry → Bool} (f : RepairEntry → RepairEntry) {e : RepairEntry}
    (listed : l.Perm (e :: m)) (first : p e = true) (others : ∀ x ∈ m, p x = false) :
    (changeFirst p f l).Perm (f e :: m) := by
  have none : m.filter p = [] := List.filter_eq_nil_iff.mpr fun x mem => Bool.not_eq_true _ ▸ others x mem
  have one : (l.filter p).length = 1 := by
    rw [(listed.filter p).length_eq, List.filter_cons_of_pos first, none, List.length_singleton]
  have kept : m.map (fun x => if p x = true then f x else x) = m :=
    (List.map_congr_left fun x mem => if_neg (Bool.not_eq_true _ ▸ others x mem)).trans m.map_id
  rw [changeFirst_eq_map f (Nat.le_of_eq one)]
  have changed := listed.map fun x => if p x = true then f x else x
  rw [List.map_cons, if_pos first, kept] at changed
  exact changed

/-- What the SKIP entry of a head, from index `c` to the end of block `b`, makes of the Repair List, where at most one entry
of its own qualifies for a merge. -/
def SkipGiven (l : List RepairEntry) (h c b : Nat) (full : Prop) (after : List RepairEntry) : Prop :=
  ((∀ e ∈ l, e.head = h → e.isSkip = false) → (l.filter (·.isSkip)).length < 24 →
    after.Perm (⟨h, .skip, c, some b, none, none, false⟩ :: l)) ∧
  ((∀ e ∈ l, e.head = h → e.isSkip = false) → 24 ≤ (l.filter (·.isSkip)).length → after.Perm l ∧ full) ∧
  ∀ e rest, l.Perm (e :: rest) → e.head = h → e.isSkip = true → (∀ x ∈ rest, x.head = h → x.isSkip = false) →
    (∀ i, e.toIndex = some i → i + 1 = c → after.Perm ({ e with toBlock := some b, toIndex := none } :: rest)) ∧
    (e.toIndex = none → e.toBlock = some b → after.Perm ({ e with fromIndex := Nat.min e.fromIndex c } :: rest)) ∧
    ((∀ i, e.toIndex = some i → i + 1 ≠ c) → (e.toIndex = none → e.toBlock ≠ some b) →
      ((l.filter (·.isSkip)).length < 24 → after.Perm (⟨h, .skip, c, some b, none, none, false⟩ :: l)) ∧
      (24 ≤ (l.filter (·.isSkip)).length → after.Perm l ∧ full))

theorem State.skips_perm (listed : s.repairs.Perm l) : s.skips = (l.filter (·.isSkip)).length :=
  (listed.filter _).length_eq

theorem State.skipGiven_skipEntry (listed : s.repairs.Perm l)
    (refused : 24 ≤ s.skips → (s.skipEntry h).2 = false → full) :
    SkipGiven l h s.run.cursor s.run.colourBlock full (s.skipEntry h).1.repairs := by
  have anew : (∀ e ∈ l, e.endsBefore h s.run.cursor = false) → (∀ e ∈ l, e.openOn h s.run.colourBlock = false) →
      ((l.filter (·.isSkip)).length < 24 → (s.skipEntry h).1.repairs.Perm (s.newSkip h :: l)) ∧
      (24 ≤ (l.filter (·.isSkip)).length → (s.skipEntry h).1.repairs.Perm l ∧ full) := by
    intro apart closed
    have places := State.skipEntry_places (s := s) (h := h)
      (fun ⟨e, mem, ends⟩ => Bool.false_ne_true ((apart e (listed.mem_iff.mp mem)).symm.trans ends))
      (fun ⟨e, mem, opens⟩ => Bool.false_ne_true ((closed e (listed.mem_iff.mp mem)).symm.trans opens))
    rw [← State.skips_perm listed]
    refine ⟨fun room => ?_, fun none => ?_⟩
    · rw [places, if_pos room, State.setRepairs_repairs]
      exact (sortEntries_perm _).trans (listed.cons _)
    · rw [if_neg (Nat.not_lt.mpr none)] at places
      exact ⟨by rw [places]; exact listed, refused none (by rw [places])⟩
  have bare : ∀ {k : List RepairEntry}, (∀ e ∈ k, e.head = h → e.isSkip = false) →
      (∀ e ∈ k, e.endsBefore h s.run.cursor = false) ∧ ∀ e ∈ k, e.openOn h s.run.colourBlock = false := by
    intro k none
    refine ⟨fun e mem => Bool.eq_false_iff.mpr fun ends => ?_, fun e mem => Bool.eq_false_iff.mpr fun opens => ?_⟩
    · obtain ⟨⟨own, skip⟩, -⟩ := RepairEntry.endsBefore_iff.mp ends
      exact Bool.false_ne_true ((none e mem own).symm.trans skip)
    · obtain ⟨⟨own, skip⟩, -⟩ := RepairEntry.openOn_iff.mp opens
      exact Bool.false_ne_true ((none e mem own).symm.trans skip)
  refine ⟨fun none => (anew (bare none).1 (bare none).2).1, fun none => (anew (bare none).1 (bare none).2).2,
    fun e rest split own skip others => ⟨fun i just before => ?_, fun endless block => ?_, fun apart closed => ?_⟩⟩
  · have ends : e.endsBefore h s.run.cursor = true := RepairEntry.endsBefore_iff.mpr ⟨⟨own, skip⟩, i, just, before⟩
    have mem : e ∈ s.repairs := (listed.trans split).mem_iff.mpr List.mem_cons_self
    rw [State.skipEntry_extends ⟨e, mem, ends⟩, State.setRepairs_repairs]
    exact (sortEntries_perm _).trans (changeFirst_perm _ (listed.trans split) ends (bare others).1)
  · have opens : e.openOn h s.run.colourBlock = true := RepairEntry.openOn_iff.mpr ⟨⟨own, skip⟩, endless, block⟩
    have mem : e ∈ s.repairs := (listed.trans split).mem_iff.mpr List.mem_cons_self
    have apart : ¬ ∃ x ∈ s.repairs, x.endsBefore h s.run.cursor = true := by
      rintro ⟨x, mem, ends⟩
      rcases List.mem_cons.mp ((listed.trans split).mem_iff.mp mem) with rfl | mem
      · obtain ⟨-, i, just, -⟩ := RepairEntry.endsBefore_iff.mp ends
        exact Option.some_ne_none i (just.symm.trans endless)
      · exact Bool.false_ne_true (((bare others).1 x mem).symm.trans ends)
    rw [State.skipEntry_takesBack apart ⟨e, mem, opens⟩, State.setRepairs_repairs]
    exact (sortEntries_perm _).trans (changeFirst_perm _ (listed.trans split) opens (bare others).2)
  · refine anew (fun x mem => ?_) (fun x mem => ?_)
    · rcases List.mem_cons.mp (split.mem_iff.mp mem) with rfl | mem
      · refine Bool.eq_false_iff.mpr fun ends => ?_
        obtain ⟨-, i, just, before⟩ := RepairEntry.endsBefore_iff.mp ends
        exact apart i just before
      · exact (bare others).1 x mem
    · rcases List.mem_cons.mp (split.mem_iff.mp mem) with rfl | mem
      · refine Bool.eq_false_iff.mpr fun opens => ?_
        obtain ⟨-, endless, block⟩ := RepairEntry.openOn_iff.mp opens
        exact closed endless block
      · exact (bare others).2 x mem

/-- A SKIP entry leaves the run record: the list that takes it is not empty, so the outstanding-repairs flag stands (R71). -/
theorem State.skipEntry_run (s : State) (h : Nat) : (s.skipEntry h).1.run = s.run := by
  have written : ∀ {l : List RepairEntry}, l ≠ [] → (s.setRepairs l).run = s.run := fun some => by
    rw [State.setRepairs_eq, if_neg some]
    rfl
  rcases s.skipEntry_cases h with ⟨p, f, -, -, ⟨e, mem, -⟩, merged⟩ | placed | ⟨same, -⟩
  · rw [merged]
    refine written ?_
    cases listed : s.repairs with
    | nil => rw [listed] at mem; cases mem
    | cons a rest =>
      unfold changeFirst
      split <;> nofun
  · rw [placed]
    exact written nofun
  · rw [same]

/-! ### A SKIP entry outside a change (R116) -/

theorem State.skipOrPost_taken (taken : (s.skipEntry h).2 = true) : s.skipOrPost h = (s.skipEntry h).1 := by
  unfold State.skipOrPost
  split
  · next e => rw [e]
  · next e => rw [e] at taken; cases taken

/-- REPAIR_LIST_FULL as it is posted for a head (R116). -/
def State.fullEvent (s : State) (h : Nat) : EventKind × Nat × BitVec 32 :=
  (.repairListFull, h, BitVec.ofNat 32 (s.run.colourBlock % 256))

theorem State.skipOrPost_refused (refused : (s.skipEntry h).2 = false) : s.skipOrPost h =
    s.post .repairListFull h (BitVec.ofNat 32 (s.run.colourBlock % 256)) := by
  have same := s.skipEntry_refused refused
  unfold State.skipOrPost
  split
  · next e => rw [e] at refused; cases refused
  · next u e =>
    rw [e] at same
    rw [show u = s from same, paramField_low]
    rfl

/-- The Repair List and the Event Queue alone change. -/
theorem State.skipOrPost_eq (s : State) (h : Nat) : ∃ l q, s.skipOrPost h = (s.withRepairs l).withEvents q := by
  cases taken : (s.skipEntry h).2 with
  | true =>
    obtain ⟨l, o, e⟩ := s.skipEntry_eq h
    have run := s.skipEntry_run h
    rw [State.skipOrPost_taken taken]
    rw [e] at run ⊢
    exact ⟨l, s.events, congrArg (fun r => (s.withRepairs l).withRun r) run⟩
  | false =>
    obtain ⟨q, posts⟩ := s.post_eq .repairListFull h (BitVec.ofNat 32 (s.run.colourBlock % 256))
    exact ⟨s.repairs, q, (State.skipOrPost_refused taken).trans posts⟩

theorem State.skipOrPost_repairs (s : State) (h : Nat) : (s.skipOrPost h).repairs = (s.skipEntry h).1.repairs := by
  cases taken : (s.skipEntry h).2 with
  | true => rw [State.skipOrPost_taken taken]
  | false => rw [State.skipOrPost_refused taken, State.post_repairs, s.skipEntry_refused taken]

/-- Below the share of 24 an entry is always taken (R146). -/
theorem State.skipEntry_takes (room : s.skips < 24) : (s.skipEntry h).2 = true := by
  by_cases ends : ∃ e ∈ s.repairs, e.endsBefore h s.run.cursor = true
  · rw [State.skipEntry_extends ends]
  · by_cases opens : ∃ e ∈ s.repairs, e.openOn h s.run.colourBlock = true
    · rw [State.skipEntry_takesBack ends opens]
    · rw [State.skipEntry_places ends opens, if_pos room]

theorem State.skipOrPost_events (room : s.skips < 24) : (s.skipOrPost h).events = s.events := by
  obtain ⟨l, o, e⟩ := s.skipEntry_eq h
  rw [State.skipOrPost_taken (State.skipEntry_takes room), e]
  rfl

/-- A SKIP entry outside a change, which posts its refusal. -/
theorem State.skipGiven_skipOrPost (listed : s.repairs.Perm l)
    (refused : 24 ≤ s.skips → (s.skipOrPost h).repairs = s.repairs → (s.skipOrPost h).posted [s.fullEvent h] → full) :
    SkipGiven l h s.run.cursor s.run.colourBlock full (s.skipOrPost h).repairs := by
  rw [State.skipOrPost_repairs] at refused ⊢
  refine State.skipGiven_skipEntry listed fun none out => refused none (by rw [s.skipEntry_refused out]) ?_
  rw [State.skipOrPost_refused out]
  exact s.posted_post _ _ _

/-! ### A head taken out by SET_INHIBIT (R116, R134, R151) -/

/-- What a head that leaves ACTIVE leaves of the Repair List. -/
def State.entriesLeft (s : State) (h : Nat) : List RepairEntry :=
  s.repairs.map fun e => if s.run.pass = .repair ∧ e.head = h ∧ e.sewing = true then
    { e with sewing := false, fromIndex := Nat.max e.fromIndex s.run.cursor } else e

theorem State.entriesLeft_main (main : s.run.pass = .main) : s.entriesLeft h = s.repairs := by
  refine (List.map_congr_left fun e _ => ?_).trans s.repairs.map_id
  exact if_neg fun repair => PassKind.noConfusion (main.symm.trans repair.1)

theorem State.entriesLeft_repair (repair : s.run.pass = .repair) :
    s.entriesLeft h = s.repairs.map (RepairEntry.unmarked h s.run.cursor) := by
  refine List.map_congr_left fun e _ => ?_
  simp only [repair, true_and, RepairEntry.unmarked]

/-- The state in which a head that leaves ACTIVE changes. -/
def State.leaving (s : State) (h : Nat) : State :=
  match s.run.pass with
  | .main => s
  | .repair => s.unmarkEntries h

theorem State.changeHead_leaving {st : HeadState} {cause : Option HeadCause} (active : (s.head h).state = .active)
    (leaves : st ≠ .active) : s.changeHead h st cause = (s.leaving h).setHeadState h st cause := by
  unfold State.leaving
  split
  · next main => exact s.changeHead_main h st cause main
  · next repair => exact State.changeHead_leaves active leaves repair

theorem State.leaving_eq (s : State) (h : Nat) : s.leaving h = { s with
    repairs := (s.leaving h).repairs,
    run := { s.run with outstanding := s.run.outstanding && !(decide (s.run.pass = .repair) && s.repairs.isEmpty) } } := by
  unfold State.leaving
  split
  · next main =>
    have clear : decide (s.run.pass = .repair) = false := decide_eq_false fun repair =>
      PassKind.noConfusion (main.symm.trans repair)
    rw [clear, Bool.false_and, Bool.not_false, Bool.and_true]
  · next repair =>
    rw [decide_eq_true repair, Bool.true_and, State.unmarkEntries_eq, State.setRepairs_eq]
    cases s.repairs with
    | nil => rw [List.isEmpty_nil, Bool.not_true, Bool.and_false]; rfl
    | cons e rest => rw [List.isEmpty_cons, Bool.not_false, Bool.and_true]; rfl

theorem State.leaving_repairs (s : State) (h : Nat) : (s.leaving h).repairs.Perm (s.entriesLeft h) := by
  unfold State.leaving
  split
  · next main => rw [State.entriesLeft_main main]
  · next repair =>
    rw [State.unmarkEntries_eq, State.setRepairs_repairs, State.entriesLeft_repair repair]
    exact sortEntries_perm _

/-- An ACTIVE head held for its needle: its record, its requests, and what is left of its entries. -/
theorem State.changeHead_barred (active : (s.head h).state = .active) :
    let t := s.changeHead h .heldNeedle none
    t = { s with
      heads := t.heads, ring := { s.ring with requests := t.ring.requests }, repairs := t.repairs,
      run := { s.run with outstanding := s.run.outstanding && !(decide (s.run.pass = .repair) && s.repairs.isEmpty) } } ∧
    t.head h = { s.head h with state := .heldNeedle, cause := none } ∧
    ((s.ring.state = .full ∨ s.ring.state = .split) →
      ⟨.presser, h, 1⟩ ∈ t.ring.requests ∧ ⟨.lamp, h, 2⟩ ∈ t.ring.requests) ∧
    t.repairs.Perm (s.entriesLeft h) := by
  intro t
  have changed : t = (s.leaving h).setHeadState h .heldNeedle none := State.changeHead_leaving active nofun
  have left := s.leaving_eq h
  have listed := s.leaving_repairs h
  generalize s.leaving h = u at changed left listed
  have found : u.head h = s.head h := by rw [left]; rfl
  have ring : u.ring = s.ring := by rw [left]
  obtain ⟨r, q, held, -, -, -, -, -, record, -⟩ := u.setHeadState_eq h .heldNeedle none
  rw [← changed] at held
  refine ⟨?_, ?_, fun up => ?_, ?_⟩
  · rw [left] at held
    rw [held]
    rfl
  · rw [← found, ← record nofun, held]
    exact (State.head_putHead u h h r).trans (if_pos rfl)
  · have offers : t = ((u.putHead h { u.head h with state := .heldNeedle, cause := none }).offer ⟨.presser, h, 1⟩).offer
        ⟨.lamp, h, 2⟩ := changed
    rw [← ring] at up
    rw [offers]
    have put : (u.putHead h { u.head h with state := .heldNeedle, cause := none }).ring = u.ring := rfl
    have present : (u.putHead h { u.head h with state := .heldNeedle, cause := none }).present h = true := by
      rw [State.present_iff, State.head_putHead, if_pos rfl]
      exact ⟨nofun, nofun⟩
    generalize u.putHead h { u.head h with state := .heldNeedle, cause := none } = p at put present
    rw [← put] at up
    refine ⟨State.offer_requests_other (State.mem_offer_present present up) nofun, ?_⟩
    obtain ⟨q, first⟩ := p.offer_eq ⟨.presser, h, 1⟩
    rw [first]
    exact State.mem_offer_present present up
  · rw [held]
    exact listed

/-! ### The SKIP entry of SET_INHIBIT by the run state (R116) -/

/-- The run states in which SET_INHIBIT makes a SKIP entry at once. -/
def RunState.skipsNow (v : RunState) : Prop := v = .armed ∨ v = .running ∨ v = .stopping ∨ v = .paused

theorem RunState.not_skipsNow {v : RunState}
    (later : v = .idle ∨ v = .arming ∨ v = .changing ∨ v = .finished ∨ v = .fault ∨ v = .walking) : ¬ v.skipsNow := by
  rcases later with rfl | rfl | rfl | rfl | rfl | rfl
  all_goals simp [RunState.skipsNow]

theorem State.skipForInhibit_now (now : s.run.state.skipsNow) : s.skipForInhibit h = s.skipOrPost h := by
  rcases now with state | state | state | state
  all_goals simp only [State.skipForInhibit, state]

theorem State.skipForInhibit_walking (walking : s.run.state = .walking) : s.skipForInhibit h =
    s.withWalk (s.walk.map fun w => { w with deferredSkips := w.deferredSkips ++ [h] }) := by
  simp only [State.skipForInhibit, walking]

theorem State.skipForInhibit_never (later : ¬ s.run.state.skipsNow) (still : s.run.state ≠ .walking) :
    s.skipForInhibit h = s := by
  unfold State.skipForInhibit
  split
  · next state => exact absurd (.inl state) later
  · next state => exact absurd (.inr (.inl state)) later
  · next state => exact absurd (.inr (.inr (.inl state))) later
  · next state => exact absurd (.inr (.inr (.inr state))) later
  · next state => exact absurd state still
  · rfl

/-- The Repair List, an event and the walk's deferred entries alone change. -/
theorem State.skipForInhibit_eq (s : State) (h : Nat) : ∃ l q x,
    s.skipForInhibit h = ((s.withRepairs l).withEvents q).withWalk x ∧ (s.run.state ≠ .walking → x = s.walk) := by
  by_cases now : s.run.state.skipsNow
  · obtain ⟨l, q, e⟩ := s.skipOrPost_eq h
    exact ⟨l, q, s.walk, (State.skipForInhibit_now now).trans e, fun _ => rfl⟩
  · by_cases walking : s.run.state = .walking
    · exact ⟨s.repairs, s.events, _, State.skipForInhibit_walking walking, fun still => absurd walking still⟩
    · exact ⟨s.repairs, s.events, s.walk, State.skipForInhibit_never now walking, fun _ => rfl⟩

/-- SET_INHIBIT's act on an ACTIVE head that its row bars. -/
def State.takenOut (s : State) (h : Nat) : State := (s.changeHead h .heldNeedle none).skipForInhibit h

theorem State.takenOut_eq (active : (s.head h).state = .active) :
    let t := s.takenOut h
    t = { s with
      heads := t.heads, ring := { s.ring with requests := t.ring.requests }, repairs := t.repairs, walk := t.walk,
      events := t.events,
      run := { s.run with outstanding := s.run.outstanding && !(decide (s.run.pass = .repair) && s.repairs.isEmpty) } } ∧
    t.head h = { s.head h with state := .heldNeedle, cause := none } ∧
    ((s.ring.state = .full ∨ s.ring.state = .split) →
      ⟨.presser, h, 1⟩ ∈ t.ring.requests ∧ ⟨.lamp, h, 2⟩ ∈ t.ring.requests) ∧
    (s.run.state ≠ .walking → t.walk = s.walk) ∧ ∀ g, g ≠ h → t.head g = s.head g := by
  intro t
  obtain ⟨changed, found, requests, -⟩ := State.changeHead_barred active
  have others : ∀ g, g ≠ h → (s.changeHead h .heldNeedle none).head g = s.head g := fun g other =>
    s.head_changeHead_other .heldNeedle none other
  obtain ⟨l, q, x, given, walk⟩ := (s.changeHead h .heldNeedle none).skipForInhibit_eq h
  have given : t = (((s.changeHead h .heldNeedle none).withRepairs l).withEvents q).withWalk x := given
  generalize s.changeHead h .heldNeedle none = u at *
  rw [given]
  refine ⟨?_, found, requests, fun still => ?_, others⟩
  · rw [changed]
    rfl
  · rw [show s.walk = u.walk by rw [changed]]
    exact walk (by rw [changed]; exact still)

theorem State.takenOut_entries (active : (s.head h).state = .active) :
    let t := s.takenOut h
    (s.run.state.skipsNow →
      SkipGiven (s.entriesLeft h) h s.run.cursor s.run.colourBlock (t.posted [s.fullEvent h]) t.repairs ∧
      (((s.entriesLeft h).filter (·.isSkip)).length < 24 → t.events = s.events)) ∧
    (¬ s.run.state.skipsNow → t.repairs.Perm (s.entriesLeft h) ∧ t.events = s.events) ∧
    (s.run.state = .walking → t.walk = s.walk.map fun w => { w with deferredSkips := w.deferredSkips ++ [h] }) := by
  intro t
  obtain ⟨changed, -, -, listed⟩ := State.changeHead_barred active
  have given : t = (s.changeHead h .heldNeedle none).skipForInhibit h := rfl
  generalize s.changeHead h .heldNeedle none = u at *
  have state : u.run.state = s.run.state := by rw [changed]
  have cursor : u.run.cursor = s.run.cursor := by rw [changed]
  have block : u.run.colourBlock = s.run.colourBlock := by rw [changed]
  have events : u.events = s.events := by rw [changed]
  have walk : u.walk = s.walk := by rw [changed]
  rw [given]
  refine ⟨fun now => ?_, fun later => ?_, fun walking => ?_⟩
  · rw [State.skipForInhibit_now (state ▸ now), ← cursor, ← block, ← State.skips_perm listed, ← events]
    have told : u.fullEvent h = s.fullEvent h := by rw [State.fullEvent, State.fullEvent, block]
    exact ⟨State.skipGiven_skipOrPost listed fun _ _ posted => told ▸ posted, State.skipOrPost_events⟩
  · by_cases walking : s.run.state = .walking
    · rw [State.skipForInhibit_walking (state.trans walking)]
      exact ⟨listed, events⟩
    · rw [State.skipForInhibit_never (state ▸ later) (state ▸ walking)]
      exact ⟨listed, events⟩
  · rw [State.skipForInhibit_walking (state.trans walking), ← walk]
    rfl

/-! ### SET_INHIBIT (R116) -/

theorem State.setInhibit_eq (s : State) (h : Nat) (row : BitVec 16) : s.setInhibit h row =
    if h = 0 ∨ 24 < h ∨ row.getLsbD 0 = true then s.refuse .p .range
    else if s.run.needle ≠ 0 ∧ row.getLsbD s.run.needle = true ∧ (s.head h).state = .active then
      ((s.putInhibitRow h row).takenOut h).reply .p .ok []
    else (s.putInhibitRow h row).reply .p .ok [] := by
  have barred : (s.putInhibitRow h row).barred h = true ∧ ((s.putInhibitRow h row).head h).state = .active ↔
      s.run.needle ≠ 0 ∧ row.getLsbD s.run.needle = true ∧ (s.head h).state = .active := by
    rw [State.barred, State.inhibitRow_putInhibitRow, if_pos rfl, Bool.and_eq_true, decide_eq_true_eq, and_assoc]
    rfl
  unfold State.setInhibit
  split
  · rfl
  · simp only [barred, apply_ite (State.reply · .p .ok [])]
    rfl

theorem State.inhibitRow_of_put {row : BitVec 16} (same : t.inhibit = (s.putInhibitRow h row).inhibit) :
    t.inhibitRow h = row ∧ ∀ g, g ≠ h → t.inhibitRow g = s.inhibitRow g := by
  have found : ∀ g, t.inhibitRow g = if g = h then row else s.inhibitRow g := fun g => by
    rw [← State.inhibitRow_putInhibitRow, State.inhibitRow, State.inhibitRow, same]
  exact ⟨(found h).trans (if_pos rfl), fun g other => (found g).trans (if_neg other)⟩

/-! ### The SKIP entry made when a walk ends (R99) -/

/-- The end of a walk of WALK that holds one SKIP entry back. -/
theorem State.endWalk_skips (s : State) (cause : WalkEnd) (walker : w.requester = .walk) (mem : h ∈ headNumbers)
    (one : ∀ g, g ∈ w.deferredSkips ↔ g = h) : s.endWalk w cause =
    ((((s.dropRead .walk).takeWalk w).skipOrPost h).post .walkDone 0 (walkParam w.cursor cause)).finishEmptied w := by
  have only : (headNumbers.filter fun g => w.deferredSkips.contains g) = [h] := by
    have held : (fun g => w.deferredSkips.contains g) = fun g => g == h := by
      funext g
      rw [Bool.eq_iff_iff, List.contains_iff_mem, one, beq_iff_eq]
    rw [held, List.filter_beq, List.count_eq_one_of_mem headNumbers_nodup mem]
    rfl
  rw [State.endWalk, only, walker]
  rfl

theorem State.skipEnded (s : State) (w : WalkRecord) (still : s.run.state ≠ .running) (h : Nat) (param : BitVec 32) :
    let t := ((s.skipOrPost h).post .walkDone 0 param).finishEmptied w
    t.heads = s.heads ∧
    SkipGiven s.repairs h s.run.cursor s.run.colourBlock (t.posted [s.fullEvent h, (.walkDone, 0, param)]) t.repairs := by
  obtain ⟨l, v, given⟩ := s.skipOrPost_eq h
  have unmoved : (s.skipOrPost h).run.state ≠ .running := by
    rw [given]
    exact still
  have heads : (s.skipOrPost h).heads = s.heads := by
    rw [given]
    rfl
  have entries := State.skipGiven_skipOrPost (s := s) (h := h) (.refl _)
    (full := (((s.skipOrPost h).post .walkDone 0 param).finishEmptied w).posted [s.fullEvent h, (.walkDone, 0, param)])
    fun none same posted => by
      have some : s.repairs ≠ [] := fun empty => by
        rw [State.skips, empty] at none
        exact absurd none (by decide)
      rw [State.finishEmptied, if_neg fun emptied => some (same.symm.trans ((State.post_repairs _ _ _ _).symm.trans emptied.2.1))]
      exact posted.post (by rw [List.length_singleton]; decide) .walkDone 0 param
  intro t
  have ended : t = ((s.skipOrPost h).post .walkDone 0 param).finishEmptied w := rfl
  rw [← ended] at entries
  generalize s.skipOrPost h = p at *
  obtain ⟨q, posts⟩ := p.post_eq .walkDone 0 param
  obtain ⟨st, z, finished⟩ := State.finishEmptied_eq (p.post .walkDone 0 param) w (by rw [State.post_run]; exact unmoved)
  rw [finished, posts] at ended
  have left : t.repairs = p.repairs := by rw [ended]; rfl
  exact ⟨by rw [ended]; exact heads, left ▸ entries⟩

theorem State.endWalk_skipGiven (s : State) (cause : WalkEnd) (walker : w.requester = .walk) (mem : h ∈ headNumbers)
    (one : ∀ g, g ∈ w.deferredSkips ↔ g = h) :
    let t := s.endWalk w cause
    t.heads = s.heads ∧ SkipGiven s.repairs h w.cursor w.colourBlock
      (t.posted [(.repairListFull, h, BitVec.ofNat 32 (w.colourBlock % 256)), (.walkDone, 0, walkParam w.cursor cause)])
      t.repairs := by
  obtain ⟨a, drops⟩ := s.dropRead_eq .walk
  rw [State.endWalk_skips s cause walker mem one, drops]
  exact ((s.withArbiter a).takeWalk w).skipEnded w ((s.withArbiter a).takeWalk_still w) h (walkParam w.cursor cause)

/-! ### O50 -/

/-- Settles O50: SET_INHIBIT by its tests, what it makes of an ACTIVE head it bars, and the entry made as a walk stops. -/
theorem setInhibitHoldsBarredHead : Obligations.SetInhibitHoldsBarredHead := by
  unfold Obligations.SetInhibitHoldsBarredHead
  intro single
  refine ⟨fun s h row takes => ⟨_, rfl, ?_⟩, fun s port w h takes walking walk walker mem one => ⟨_, rfl, ?_⟩⟩
  · refine State.refused_or takes (s.framed.setInhibit_eq h row) fun range taken => ?_
    split
    · next bars =>
      have taken : s.framed.setInhibit h row = _ := taken.trans (if_pos bars)
      have only := State.takenOut_eq (s := s.framed.putInhibitRow h row) bars.2.2
      have entries := State.takenOut_entries (s := s.framed.putInhibitRow h row) bars.2.2
      generalize (s.framed.putInhibitRow h row).takenOut h = u at taken only entries
      obtain ⟨same, found, requests, walk, others⟩ := only
      obtain ⟨now, later, walking⟩ := entries
      obtain ⟨ran, answers⟩ := State.replied_onFrame (body := fun t => t.setInhibit h row) takes taken (by rw [same]; rfl)
      obtain ⟨p, replied⟩ : ∃ p, u.reply .p .ok [] = { u with portP := p } := ⟨_, rfl⟩
      rw [ran]
      refine ⟨answers, ?_⟩
      rw [replied]
      obtain ⟨own, kept⟩ := State.inhibitRow_of_put (s := s) (row := row) (t := { u with portP := p }) (by rw [same]; rfl)
      refine ⟨own, fun g other => ⟨kept g other, others g other⟩, ?_, found, requests, walk, ?_, ?_, ?_⟩
      · rw [same]
        rfl
      · exact now
      · intro state
        refine later fun now => RunState.not_skipsNow ?_ now
        exact state
      · intro state w walks
        refine ⟨_, (walking state).trans (congrArg _ walks), fun g => ?_⟩
        rw [List.mem_append, List.mem_singleton, or_comm]
    · next free =>
      have taken : s.framed.setInhibit h row = _ := taken.trans (if_neg free)
      obtain ⟨ran, answers⟩ := State.replied_onFrame (body := fun t => t.setInhibit h row) takes taken rfl
      rw [ran]
      obtain ⟨own, kept⟩ := State.inhibitRow_of_put (s := s) (row := row)
        (t := (s.framed.putInhibitRow h row).reply .p .ok []) rfl
      exact ⟨answers, own, fun g other => ⟨kept g other, rfl⟩, rfl⟩
  · rw [State.onFrame_taken s port _ takes]
    obtain ⟨a, p, m, framed⟩ := s.framedOn_eq port
    have stops : (s.framedOn port).stopRun port = (s.framedOn port).endWalk w .stop :=
      State.stopRun_walking (by rw [framed]; exact walking) (by rw [framed]; exact walk)
    obtain ⟨p', m', replied⟩ := ((s.framedOn port).endWalk w .stop).reply_ports port .ok []
    obtain ⟨ended, cursor, block, -⟩ := (s.framedOn port).endWalk_point w .stop
    obtain ⟨heads, entries⟩ := (s.framedOn port).endWalk_skipGiven .stop walker mem one
    rw [walkParam_eq] at entries
    have frame : (s.framedOn port).heads = s.heads ∧ (s.framedOn port).repairs = s.repairs := by
      rw [framed]
      exact ⟨rfl, rfl⟩
    rw [frame.1] at heads
    rw [frame.2] at entries
    have left : (((s.loseReply port).closeFrame port).stopRun port).reply port .ok [] = _ :=
      (congrArg (State.reply · port .ok []) stops).trans replied
    rw [left]
    exact ⟨ended, cursor, block, heads, entries⟩

end Sys2Proof.Machine
end

section
/-! PROOF. O42, the list emptied by HEAD_ON (R153), in PAUSED, in WALKING, and at the end of the walk. -/

namespace Sys2Proof.Machine

open Sys2Proof

variable {s t u : State} {w : WalkRecord} {h g : Nat} {st : HeadState}

/-! ### An empty Repair List (R145) -/

/-- An empty Repair List stays empty. -/
def State.StaysEmpty (s t : State) : Prop := s.repairs = [] → t.repairs = []

theorem State.StaysEmpty.refl (s : State) : s.StaysEmpty s := id

theorem State.StaysEmpty.trans (h : s.StaysEmpty t) (g : t.StaysEmpty u) : s.StaysEmpty u := fun empty => g (h empty)

/-- Entries changed one by one. -/
theorem State.StaysEmpty.map (s : State) (f : RepairEntry → RepairEntry) : s.StaysEmpty (s.setRepairs (s.repairs.map f)) :=
  fun empty => by rw [empty, List.map_nil, State.setRepairs_repairs, sortEntries]

theorem State.StaysEmpty.setHeadState (s : State) (h : Nat) (st : HeadState) (cause : Option HeadCause) :
    s.StaysEmpty (s.setHeadState h st cause) := fun empty => (s.repairs_setHeadState h st cause).trans empty

theorem State.StaysEmpty.enterHead (s : State) (h : Nat) (st : HeadState) : s.StaysEmpty (s.enterHead h st) := by
  unfold State.enterHead State.changeHead
  split
  · exact .refl s
  · split
    · exact (State.StaysEmpty.map s _).trans (.setHeadState _ h st none)
    · exact .setHeadState s h st none

theorem State.StaysEmpty.placeHead (s : State) (h : Nat) : s.StaysEmpty (s.placeHead h) := by
  obtain ⟨st, j, placed | placed⟩ := s.placeHead_cases h
  · rw [placed]
    exact .enterHead s h st
  · rw [placed]
    exact State.StaysEmpty.trans (t := (s.enterHead h st).setJoin h j) (.enterHead s h st) (.map _ _)

theorem State.StaysEmpty.headsSeen (s : State) (q : WalkRequester) : s.StaysEmpty (s.headsSeen q) := by
  cases q with
  | walk => exact .refl s
  | repair =>
    change s.StaysEmpty s.placeAll
    rw [State.placeAll_eq]
    refine State.foldl_keeps State.StaysEmpty.refl State.StaysEmpty.trans (fun t h => ?_) headNumbers s
    unfold State.placeOne
    split
    · exact .refl t
    · exact .placeHead t h

/-! ### A head returned with no entry left (R143, R149) -/

theorem State.rested_placeHead (empty : s.repairs = []) : let t := s.placeHead h
    (t.head h).state = .resting ∧ (t.head h).joinIndex = none := by
  have far : ¬ s.sewsNear h := by
    rintro ⟨e, mem, -⟩
    rw [State.mem_entriesOf, empty] at mem
    exact List.not_mem_nil mem.1
  have least : leastAbove s.repairs h s.run.cursor = none := by
    rw [empty]
    exact leastAbove_none.mpr nofun
  intro t
  rw [show t = _ from State.placeHead_rests far least, State.head_setJoin, if_pos rfl]
  exact ⟨s.state_enterHead h .resting, rfl⟩

/-- The last FAULT entry of a HELD_FAULT head dropped, and the head returned, in a REPAIR pass. -/
def State.lastDropped (s : State) (h : Nat) : State := ((s.dropFault h).undefer h).placeHead h

theorem State.lastDropped_leaves (last : ∀ e ∈ s.repairs, e.head = h ∧ e.isFault = true) : let t := s.lastDropped h
    s.OnlyHeads t ∧ t.repairs = [] ∧ t.run.outstanding = false ∧
    (t.head h).state = .resting ∧ (t.head h).joinIndex = none := by
  have none : (s.repairs.filter fun e => !(decide (e.head = h) && e.isFault)) = [] := by
    refine List.filter_eq_nil_iff.mpr fun e mem => ?_
    obtain ⟨own, fault⟩ := last e mem
    rw [own, fault, decide_eq_true rfl]
    decide
  have dropped : (s.dropFault h).repairs = [] ∧ (s.dropFault h).run.outstanding = false := by
    rw [State.dropFault, none, State.setRepairs_eq]
    exact ⟨rfl, rfl⟩
  have undeferred : ((s.dropFault h).undefer h).repairs = [] := State.StaysEmpty.map _ _ dropped.1
  intro t
  refine ⟨?_, State.StaysEmpty.placeHead _ h undeferred, State.StaysSettled.placeHead _ h ?_,
    State.rested_placeHead undeferred⟩
  · exact ((State.OnlyHeads.setRepairs s _).trans (.setRepairs _ _)).trans (.placeHead _ h)
  · exact State.StaysSettled.setRepairs _ _ dropped.2

/-- HEAD_ON brings back a head whose last entry it drops (R143, R153). -/
theorem State.headOn_last (mem : h ∈ headNumbers) (held : (s.head h).state = .heldFault) (free : s.barred h = false)
    (repair : s.run.pass = .repair) (some : s.repairs ≠ []) (last : ∀ e ∈ s.repairs, e.head = h ∧ e.isFault = true)
    (still : s.run.state = .paused ∨ s.run.state = .walking) :
    s.headOn h = (s.lastDropped h).checkPassEmptied.reply .p .ok [] := by
  have known : ¬ (h = 0 ∨ 24 < h) := by
    obtain ⟨k, below, rfl⟩ := List.mem_map.mp mem
    rw [List.mem_range] at below
    have share : Config.headCount = 24 := rfl
    omega
  have idle : ¬ (s.run.state = .running ∨ s.run.state = .stopping ∨ s.run.state = .changing) := by
    rcases still with state | state
    all_goals rw [state]; decide
  have dropped : s.repairs ≠ (s.dropFault h).repairs := by
    obtain ⟨e, rest, listed⟩ := List.exists_cons_of_ne_nil some
    intro same
    have kept : e ∈ (s.dropFault h).repairs := by
      rw [← same, listed]
      exact List.mem_cons_self
    rw [State.dropFault, State.setRepairs_repairs, mem_sortEntries, List.mem_filter] at kept
    obtain ⟨mem, kept⟩ := kept
    obtain ⟨own, fault⟩ := last e mem
    rw [own, fault, decide_eq_true rfl] at kept
    exact Bool.false_ne_true kept
  have pass : (s.dropFault h).run.pass = .repair := (State.OnlyHeads.setRepairs s _).pass.trans repair
  have returned : (s.dropFault h).returnHead h = s.lastDropped h := by
    simp only [State.returnHead, pass]
    rfl
  simp only [State.headOn, if_neg known, if_neg idle, held, free, Bool.false_eq_true, if_false, State.bringBack,
    if_neg dropped, returned]

/-! ### The pass that ends with its list (R153) -/

/-- The list of a REPAIR pass emptied outside RUNNING and STOPPING. -/
theorem State.checkPassEmptied_leaves (repair : s.run.pass = .repair) (empty : s.repairs = []) : let t := s.checkPassEmptied
    (s.run.cursor < s.designLength → s.run.state = .paused → t = s.finishRepair) ∧
    (s.run.cursor < s.designLength → s.run.state = .walking →
      t = s.withWalk (s.walk.map fun w => { w with listEmptied := true })) ∧
    (s.designLength ≤ s.run.cursor → t = s) := by
  refine ⟨fun below paused => ?_, fun below walking => ?_, fun ended => ?_⟩
  · rw [State.checkPassEmptied, if_pos ⟨repair, empty, below⟩]
    simp only [State.passEmptied, paused]
  · rw [State.checkPassEmptied, if_pos ⟨repair, empty, below⟩]
    simp only [State.passEmptied, walking]
  · exact if_neg fun within => absurd within.2.2 (Nat.not_lt.mpr ended)

theorem State.checkPassEmptied_eq (s : State) (still : s.run.state = .paused ∨ s.run.state = .walking) : ∃ st v x,
    s.checkPassEmptied = ((s.withRun { s.run with state := st }).withEvents v).withWalk x := by
  unfold State.checkPassEmptied
  split
  · rcases still with paused | walking
    · obtain ⟨v, finishes⟩ := State.finishRepair_eq (s := s) (by rw [paused]; nofun)
      have ends : s.passEmptied = s.finishRepair := by simp only [State.passEmptied, paused]
      exact ⟨.finished, v, s.walk, ends.trans (finishes.trans rfl)⟩
    · have marks : s.passEmptied = s.withWalk (s.walk.map fun w => { w with listEmptied := true }) := by
        simp only [State.passEmptied, walking]
      exact ⟨s.run.state, s.events, _, marks.trans rfl⟩
  · exact ⟨s.run.state, s.events, s.walk, rfl⟩

/-- A walk that ends with the list of its pass emptied meanwhile, and empty still, ends the pass (R153). -/
theorem State.endWalk_emptied (cause : WalkEnd) (listed : w.listEmptied = true) (noSkips : w.deferredSkips = [])
    (empty : s.repairs = []) (repair : s.run.pass = .repair) :
    (s.endWalk w cause).run.state = .finished ∧
    (s.endWalk w cause).posted [(.walkDone, 0, walkParam w.cursor cause), (.repairDone, 0, 0)] := by
  obtain ⟨a, drops⟩ := s.dropRead_eq .walk
  have heads := State.OnlyHeads.headsSeen ((s.withArbiter a).takeWalk w) w.requester
  have none : (((s.withArbiter a).takeWalk w).headsSeen w.requester).repairs = [] :=
    State.StaysEmpty.headsSeen _ w.requester empty
  have pass : (((s.withArbiter a).takeWalk w).headsSeen w.requester).run.pass = .repair := heads.pass.trans repair
  have still : (((s.withArbiter a).takeWalk w).headsSeen w.requester).run.state ≠ .running := by
    rw [heads.run]
    exact State.takeWalk_still _ w
  rw [State.endWalk_noSkips s cause noSkips, drops]
  generalize ((s.withArbiter a).takeWalk w).headsSeen w.requester = p at none pass still
  have posted := p.posted_post .walkDone 0 (walkParam w.cursor cause)
  obtain ⟨q, posts⟩ := p.post_eq .walkDone 0 (walkParam w.cursor cause)
  rw [posts] at posted ⊢
  have finishes : (p.withEvents q).finishEmptied w = (p.withEvents q).finishRepair := if_pos ⟨listed, none, pass⟩
  rw [finishes]
  refine ⟨by rw [(p.withEvents q).finishRepair_leaves.1], ?_⟩
  rw [State.finishRepair, State.setRunState_of_not_running (s := p.withEvents q) _ still, State.postRepairDone]
  have now : ((p.withEvents q).withRun { p.run with state := .finished }).posted _ := posted.congr rfl rfl
  exact now.post (by rw [List.length_singleton]; decide) .repairDone 0 _

/-- A list emptied by HEAD_ON: the pass ends at once in PAUSED, and with the walk in WALKING. -/
theorem State.emptied_headOn (takes : s.takesFrame .p = true) (mem : h ∈ headNumbers) (held : (s.head h).state = .heldFault)
    (free : s.barred h = false) (repair : s.run.pass = .repair) (some : s.repairs ≠ [])
    (last : ∀ e ∈ s.repairs, e.head = h ∧ e.isFault = true)
    (still : s.run.state = .paused ∨ s.run.state = .walking) : let t := s.onFrame .p fun t => t.headOn h
    s.answers t .p .ok [] ∧ t.repairs = [] ∧ t.run.outstanding = false ∧
    (t.head h).state = .resting ∧ (t.head h).joinIndex = none ∧
    (s.run.cursor < s.designLength → s.run.state = .paused → t.run.state = .finished ∧ t.posted [(.repairDone, 0, 0)]) ∧
    (s.run.cursor < s.designLength → s.run.state = .walking → t.run.state = .walking ∧ t.events = s.events ∧
      t.walk = s.walk.map fun w => { w with listEmptied := true }) ∧
    (s.designLength ≤ s.run.cursor → t.run.state = s.run.state ∧ t.events = s.events ∧ t.walk = s.walk) := by
  have on := State.headOn_last (s := s.framed) mem held free repair some last still
  obtain ⟨only, empty, settled, resting, join⟩ := State.lastDropped_leaves (s := s.framed) last
  generalize s.framed.lastDropped h = q at on only empty settled resting join
  have only := only.eq
  have state : q.run.state = s.run.state := by rw [only]; rfl
  have cursor : q.run.cursor = s.run.cursor := by rw [only]; rfl
  have length : q.designLength = s.designLength := by rw [only]; rfl
  obtain ⟨finishes, marks, keeps⟩ := State.checkPassEmptied_leaves (s := q) (by rw [only]; exact repair) empty
  rw [state, cursor, length] at finishes marks
  rw [cursor, length] at keeps
  obtain ⟨st, v, x, left⟩ := q.checkPassEmptied_eq (state ▸ still)
  obtain ⟨ran, answers⟩ := State.replied_onFrame (body := fun t => t.headOn h) takes on (by rw [left, only]; rfl)
  obtain ⟨p, replied⟩ : ∃ p, q.checkPassEmptied.reply .p .ok [] = { q.checkPassEmptied with portP := p } := ⟨_, rfl⟩
  intro t
  rw [show t = _ from ran]
  refine ⟨answers, ?_⟩
  rw [replied]
  refine ⟨by rw [left]; exact empty, by rw [left]; exact settled, by rw [left]; exact resting, by rw [left]; exact join,
    fun below paused => ?_, fun below walking => ?_, fun ended => ?_⟩
  · obtain ⟨run, -, posted⟩ := q.finishRepair_leaves
    rw [finishes below paused]
    exact ⟨congrArg RunRecord.state run, posted.congr rfl rfl⟩
  · rw [marks below walking, only]
    exact ⟨walking, rfl, rfl⟩
  · rw [keeps ended, only]
    exact ⟨rfl, rfl, rfl⟩

/-- STOP ends a walk during which the list may have been emptied (R102, R153). -/
theorem State.emptied_stop {port : Port} (takes : s.takesFrame port = true) (walking : s.run.state = .walking)
    (walk : s.walk = some w) (noSkips : w.deferredSkips = []) (empty : s.repairs = []) (repair : s.run.pass = .repair) :
    let t := s.onFrame port fun t => (t.stopRun port).reply port .ok []
    t.walk = none ∧ t.run.cursor = w.cursor ∧
    if w.listEmptied = true then
      t.run.state = .finished ∧ t.posted [(.walkDone, 0, walkParam w.cursor .stop), (.repairDone, 0, 0)]
    else
      t.run.state = (if w.cursor = s.designLength then .finished else .paused) ∧
      t.posted [(.walkDone, 0, walkParam w.cursor .stop)] := by
  intro t
  obtain ⟨a, p, m, framed⟩ := s.framedOn_eq port
  have stops : (s.framedOn port).stopRun port = (s.framedOn port).endWalk w .stop :=
    State.stopRun_walking (by rw [framed]; exact walking) (by rw [framed]; exact walk)
  obtain ⟨p', m', replied⟩ := ((s.framedOn port).endWalk w .stop).reply_ports port .ok []
  obtain ⟨ended, cursor, -⟩ := (s.framedOn port).endWalk_point w .stop
  have left : t = _ := (State.onFrame_taken s port _ takes).trans ((congrArg (State.reply · port .ok []) stops).trans replied)
  rw [left]
  refine ⟨ended, cursor, ?_⟩
  split
  · next listed =>
    obtain ⟨state, posted⟩ := State.endWalk_emptied (s := s.framedOn port) .stop listed noSkips
      (by rw [framed]; exact empty) (by rw [framed]; exact repair)
    exact ⟨state, posted.congr rfl rfl⟩
  · next listed =>
    obtain ⟨-, run, -, -, posted⟩ := State.endWalk_leaves (s := s.framedOn port) .stop (Bool.not_eq_true _ ▸ listed)
    have length : (s.framedOn port).designLength = s.designLength := by rw [framed]; rfl
    rw [← length]
    exact ⟨congrArg RunRecord.state run, posted.congr rfl rfl⟩

end Sys2Proof.Machine
end

section
/-! PROOF. O42, the inhibit check of a REPAIR pass (R110, R152) at the deadline of a change (R108). -/

namespace Sys2Proof.Machine

open Sys2Proof

variable {s t u : State} {h g b : Nat} {l : List Nat} {c : ChangeRecord} {cause : LossCause}

/-! ### The heads a deadline loses (R108, R135) -/

/-- A head that is not ACTIVE is lost: its record, the ring, the confirm set and an event change, and nothing else. -/
theorem State.loseHead_idle (idle : (s.head h).state ≠ .active) : ∃ z ring v, s.loseHead h cause =
    (((s.withHeads z).withRing ring).withChange
      (s.change.map fun c => { c with confirm := c.confirm.filter fun k => decide (k ≠ h) })).withEvents v ∧
    ∃ r : HeadRecord, r.state = .lost ∧ ∀ k, (s.loseHead h cause).head k = if k = h then r else s.head k := by
  have keeps := State.changeHead_keeps (s := s) (h := h) (st := .lost) (cause := some (.loss cause)) fun own => idle own.1
  obtain ⟨r, q, e, lost, -⟩ := s.setHeadState_eq h .lost (some (.loss cause))
  obtain ⟨v, posts⟩ := ((s.changeHead h .lost (some (.loss cause))).forgetHead h).post_eq .headLost h (lossParam cause)
  have loses : s.loseHead h cause =
      (((s.putHead h r).withRing ((s.changeHead h .lost (some (.loss cause))).forgetHead h).ring).withChange
      (s.change.map fun c => { c with confirm := c.confirm.filter fun k => decide (k ≠ h) })).withEvents v := by
    rw [State.loseHead, posts, keeps, e]
    rfl
  generalize ((s.changeHead h .lost (some (.loss cause))).forgetHead h).ring = ring at loses
  have heads : (s.loseHead h cause).heads = (s.putHead h r).heads := by
    rw [loses, State.withEvents, State.withChange, State.withRing]
  exact ⟨_, ring, v, loses, r, lost, fun k => (State.head_congr heads k).trans (s.head_putHead h k r)⟩

/-- Heads that are not ACTIVE lost one by one. -/
structure State.LosesIdle (s t : State) (l : List Nat) : Prop where
  run : t.run = s.run
  repairs : t.repairs = s.repairs
  inhibit : t.inhibit = s.inhibit
  others : ∀ g, g ∉ l → t.head g = s.head g
  lost : ∀ g ∈ l, (t.head g).state = .lost
  change : t.change = s.change.map fun c => { c with confirm := c.confirm.filter fun k => decide (k ∉ l) }

theorem State.losesIdle_foldl (idle : ∀ g ∈ l, (s.head g).state ≠ .active) :
    s.LosesIdle (l.foldl (fun t g => t.loseHead g cause) s) l := by
  induction l generalizing s with
  | nil =>
    refine ⟨rfl, rfl, rfl, fun _ _ => rfl, nofun, ?_⟩
    have whole : (fun c : ChangeRecord =>
        { c with confirm := c.confirm.filter fun k => decide (k ∉ ([] : List Nat)) }) = id := by
      funext c
      have all : c.confirm.filter (fun k => decide (k ∉ ([] : List Nat))) = c.confirm :=
        List.filter_eq_self.mpr fun k _ => decide_eq_true List.not_mem_nil
      rw [all]
      rfl
    rw [whole, Option.map_id]
    rfl
  | cons g rest ih =>
    obtain ⟨z, ring, v, e, r, lost, found⟩ := State.loseHead_idle (cause := cause) (idle g List.mem_cons_self)
    rw [List.foldl_cons]
    generalize s.loseHead g cause = u at e found
    have change : u.change = s.change.map fun c => { c with confirm := c.confirm.filter fun k => decide (k ≠ g) } := by
      rw [e]
      rfl
    have run : u.run = s.run := by rw [e]; rfl
    have repairs : u.repairs = s.repairs := by rw [e]; rfl
    have inhibit : u.inhibit = s.inhibit := by rw [e]; rfl
    have after := ih (s := u) fun k mem => by
      rw [found]
      split
      · rw [lost]; nofun
      · exact idle k (List.mem_cons_of_mem g mem)
    refine ⟨after.run.trans run, after.repairs.trans repairs, after.inhibit.trans inhibit, fun k out => ?_, fun k mem => ?_, ?_⟩
    · rw [List.mem_cons, not_or] at out
      rw [after.others k out.2, found, if_neg out.1]
    · by_cases later : k ∈ rest
      · exact after.lost k later
      · rw [after.others k later, found, if_pos ((List.mem_cons.mp mem).resolve_right later)]
        exact lost
    · rw [after.change, change, Option.map_map]
      congr 1
      funext c
      simp only [Function.comp_apply, List.filter_filter, List.mem_cons, not_or, Bool.decide_and, Bool.and_comm]

/-! ### The inhibit check that holds one head (R110) -/

theorem State.inhibitCheck_fst (s : State) (l : List Nat) : (s.inhibitCheck l).1 = l.foldl (fun t g => (t.checkHead g).1) s := by
  induction l generalizing s with
  | nil => rfl
  | cons g rest ih => exact ih (s.checkHead g).1

/-- A head that is neither ACTIVE nor HELD_NEEDLE is left by the inhibit check. -/
theorem State.checkHead_idle (idle : (s.head g).state ≠ .active ∧ (s.head g).state ≠ .heldNeedle) :
    (s.checkHead g).1 = s := by
  unfold State.checkHead
  split
  · next active _ => exact absurd active idle.1
  · next held _ => exact absurd held idle.2
  · next held _ => exact absurd held idle.2
  · rfl

theorem State.inhibitCheck_idle (idle : ∀ g ∈ l, (s.head g).state ≠ .active ∧ (s.head g).state ≠ .heldNeedle) :
    (s.inhibitCheck l).1 = s := by
  rw [State.inhibitCheck_fst]
  induction l with
  | nil => rfl
  | cons g rest ih =>
    rw [List.foldl_cons, State.checkHead_idle (idle g List.mem_cons_self)]
    exact ih fun k mem => idle k (List.mem_cons_of_mem g mem)

/-- The inhibit check where one head alone may act. -/
theorem State.inhibitCheck_alone (nodup : l.Nodup) (mem : h ∈ l)
    (idle : ∀ g ∈ l, g ≠ h → (s.head g).state ≠ .active ∧ (s.head g).state ≠ .heldNeedle)
    (others : ∀ g, g ≠ h → (s.checkHead h).1.head g = s.head g) : (s.inhibitCheck l).1 = (s.checkHead h).1 := by
  obtain ⟨pre, post, rfl⟩ := List.append_of_mem mem
  have before : ∀ g ∈ pre, g ≠ h := fun g m same => (List.nodup_append.mp nodup).2.2 g m h List.mem_cons_self same
  have later : ∀ g ∈ post, g ≠ h := fun g m same => by
    rw [same] at m
    exact (List.nodup_cons.mp (List.nodup_append.mp nodup).2.1).1 m
  have first := State.inhibitCheck_idle (s := s) (l := pre) fun g m => idle g (List.mem_append_left _ m) (before g m)
  have last := State.inhibitCheck_idle (s := (s.checkHead h).1) (l := post) fun g m => by
    rw [others g (later g m)]
    exact idle g (List.mem_append_right _ (List.mem_cons_of_mem h m)) (later g m)
  rw [State.inhibitCheck_fst] at first last ⊢
  rw [List.foldl_append, List.foldl_cons, first, last]

theorem State.checkHead_holds (active : (s.head h).state = .active) (barred : s.barred h = true) :
    (s.checkHead h).1 = ((s.holdAtChange h).skipEntry h).1 := by
  simp only [State.checkHead, active, barred]

/-! ### The entries of a head taken out (R152) -/

/-- An entry that goes as its head is taken out on entering a block. -/
def RepairEntry.goesAt (h b : Nat) (e : RepairEntry) : Bool :=
  decide (e.head = h) && e.sewing && e.isSkip && decide (e.toBlock = some b)

/-- An entry that is put off as its head is taken out on entering a block. -/
def RepairEntry.putOff (h b : Nat) (e : RepairEntry) : RepairEntry :=
  if e.head = h ∧ e.sewing = true then
    { e with sewing := false, deferred := if (e.isFault || decide (b < e.toBlock.getD 0)) = true then some b else e.deferred }
  else e

theorem State.deferEntries_eq (s : State) (h b : Nat) : s.deferEntries h b =
    s.setRepairs ((s.repairs.filter fun e => !e.goesAt h b).map (RepairEntry.putOff h b)) := rfl

theorem RepairEntry.putOff_keeps (h b : Nat) (e : RepairEntry) : (e.putOff h b).head = e.head ∧ (e.putOff h b).kind = e.kind ∧
    (e.putOff h b).toIndex = e.toIndex ∧ (e.putOff h b).toBlock = e.toBlock := by
  unfold RepairEntry.putOff
  split
  · exact ⟨rfl, rfl, rfl, rfl⟩
  · exact ⟨rfl, rfl, rfl, rfl⟩

theorem RepairEntry.isSkip_putOff (h b : Nat) (e : RepairEntry) : (e.putOff h b).isSkip = e.isSkip := by
  rw [RepairEntry.isSkip, (e.putOff_keeps h b).2.1]
  rfl

theorem State.entriesOf_deferEntries (s : State) (h b g : Nat) : ((s.deferEntries h b).entriesOf g).Perm
    (((s.entriesOf g).filter fun e => !e.goesAt h b).map (RepairEntry.putOff h b)) := by
  rw [State.deferEntries_eq]
  refine (s.entriesOf_setRepairs _ g).trans (.of_eq ?_)
  rw [filter_head_map fun e => (e.putOff_keeps h b).1, State.entriesOf, List.filter_filter, List.filter_filter]
  congr 2
  funext e
  exact Bool.and_comm _ _

theorem State.entriesOf_deferEntries_other (s : State) (b : Nat) (other : g ≠ h) :
    ((s.deferEntries h b).entriesOf g).Perm (s.entriesOf g) := by
  have apart : ∀ e ∈ s.entriesOf g, e.head ≠ h := fun e mem own => other ((State.mem_entriesOf.mp mem).2.symm.trans own)
  refine (s.entriesOf_deferEntries h b g).trans (.of_eq ?_)
  have kept : ((s.entriesOf g).filter fun e => !e.goesAt h b) = s.entriesOf g := by
    refine List.filter_eq_self.mpr fun e mem => ?_
    rw [RepairEntry.goesAt, decide_eq_false (apart e mem)]
    rfl
  rw [kept]
  exact (List.map_congr_left fun e mem => if_neg fun own => apart e mem own.1).trans (List.map_id _)

theorem State.skips_deferEntries (s : State) (h b : Nat) : (s.deferEntries h b).skips ≤ s.skips := by
  rw [State.deferEntries_eq, State.skips_setRepairs, List.filter_map, List.length_map, State.skips]
  have same : (fun e : RepairEntry => e.isSkip) ∘ RepairEntry.putOff h b = fun e => e.isSkip :=
    funext fun e => e.isSkip_putOff h b
  rw [same]
  exact (List.filter_sublist.filter _).length_le

theorem State.head_deferEntries (s : State) (h b g : Nat) : (s.deferEntries h b).head g = s.head g := State.setRepairs_head ..

/-- A head taken out of a REPAIR pass on entering the current block: HELD_NEEDLE, with a SKIP entry for the block. -/
theorem State.checkHead_takesOut (active : (s.head h).state = .active) (barred : s.barred h = true)
    (repair : s.run.pass = .repair) (room : s.skips < 24)
    (stretches : ∀ e ∈ s.entriesOf h, e.isSkip = true → e.toIndex = none ∧
      (e.toBlock = some s.run.colourBlock → e.sewing = true)) : let t := (s.checkHead h).1
    (t.head h).state = .heldNeedle ∧ (∀ g, g ≠ h → t.head g = s.head g) ∧
    (t.entriesOf h).Perm (s.newSkip h :: ((s.entriesOf h).filter fun e => !e.goesAt h s.run.colourBlock).map
      (RepairEntry.putOff h s.run.colourBlock)) ∧
    ∀ g, g ≠ h → (t.entriesOf g).Perm (s.entriesOf g) := by
  have held : s.holdAtChange h = (s.setHeadState h .heldNeedle none).deferEntries h s.run.colourBlock := by
    simp only [State.holdAtChange, repair]
  have only : s.OnlyHeads (s.holdAtChange h) := .holdAtChange s h
  have heads : ∀ g, (s.holdAtChange h).head g = (s.setHeadState h .heldNeedle none).head g := fun g => by
    rw [held, State.head_deferEntries]
  have own : ((s.holdAtChange h).entriesOf h).Perm (((s.entriesOf h).filter fun e => !e.goesAt h s.run.colourBlock).map
      (RepairEntry.putOff h s.run.colourBlock)) := by
    rw [held]
    exact (State.entriesOf_deferEntries _ h _ h).trans (.of_eq (by rw [State.entriesOf_setHeadState]))
  have theirs : ∀ g, g ≠ h → ((s.holdAtChange h).entriesOf g).Perm (s.entriesOf g) := fun g other => by
    rw [held]
    exact (State.entriesOf_deferEntries_other _ _ other).trans (.of_eq (by rw [State.entriesOf_setHeadState]))
  have few : (s.holdAtChange h).skips < 24 := by
    rw [held]
    refine Nat.lt_of_le_of_lt (State.skips_deferEntries _ h _) ?_
    rw [State.skips, State.repairs_setHeadState]
    exact room
  have left : ∀ e ∈ (s.holdAtChange h).entriesOf h, e.isSkip = true →
      e.toIndex = none ∧ e.toBlock ≠ some s.run.colourBlock := by
    intro e mem skip
    obtain ⟨d, kept, rfl⟩ := List.mem_map.mp (own.mem_iff.mp mem)
    obtain ⟨listed, stays⟩ := List.mem_filter.mp kept
    obtain ⟨-, -, index, block⟩ := d.putOff_keeps h s.run.colourBlock
    rw [RepairEntry.isSkip_putOff] at skip
    obtain ⟨endless, sews⟩ := stretches d listed skip
    rw [index, block]
    refine ⟨endless, fun here => ?_⟩
    rw [RepairEntry.goesAt, decide_eq_true (State.mem_entriesOf.mp listed).2, sews here, skip, decide_eq_true here] at stays
    exact Bool.false_ne_true stays
  have cursor := only.cursor
  have block : (s.holdAtChange h).run.colourBlock = s.run.colourBlock := by rw [only.run]
  have new : (s.holdAtChange h).newSkip h = s.newSkip h := by rw [State.newSkip, State.newSkip, cursor, block]
  rw [State.checkHead_holds active barred]
  generalize s.holdAtChange h = p at *
  have places := State.skipEntry_places (s := p) (h := h)
    (fun ⟨e, mem, ends⟩ => by
      obtain ⟨⟨own, skip⟩, i, just, -⟩ := RepairEntry.endsBefore_iff.mp ends
      exact Option.some_ne_none i (just.symm.trans (left e (State.mem_entriesOf.mpr ⟨mem, own⟩) skip).1))
    (fun ⟨e, mem, opens⟩ => by
      obtain ⟨⟨own, skip⟩, -, here⟩ := RepairEntry.openOn_iff.mp opens
      exact (left e (State.mem_entriesOf.mpr ⟨mem, own⟩) skip).2 (block ▸ here))
  rw [if_pos few] at places
  refine ⟨?_, fun g other => ?_, ?_, fun g other => (p.entriesOf_skipEntry other).trans (theirs g other)⟩
  · rw [State.head_skipEntry, heads]
    exact (s.head_setHeadState h h .heldNeedle none).1
  · rw [State.head_skipEntry, heads]
    exact s.head_setHeadState_other .heldNeedle none other
  · rw [places, new]
    refine (State.entriesOf_setRepairs p _ h).trans ?_
    rw [List.filter_cons_of_pos (a := s.newSkip h) (decide_eq_true rfl)]
    exact own.cons _

/-! ### The deadline (R108 to R112) -/

/-- The end of a change leaves the heads, the Repair List and the machine needle. -/
theorem State.concludeChange_keeps (s : State) (action : ChangeAction) (full : Option Nat) :
    let t := s.concludeChange action full
    t.change = none ∧ t.run.needle = s.run.needle ∧ t.heads = s.heads ∧ t.repairs = s.repairs := by
  let m := s.withChange (s.change.map fun d => { d with listFull := full.isSome })
  have decided : (m.resumeDecision action full).run.needle = m.run.needle ∧ (m.resumeDecision action full).heads = m.heads ∧
      (m.resumeDecision action full).repairs = m.repairs := by
    obtain ⟨st, r, q, a, v, e, -⟩ := m.resumeDecision_eq action full
    rw [e]
    exact ⟨rfl, rfl, rfl⟩
  obtain ⟨needle, heads, repairs⟩ := decided
  have ended : s.concludeChange action full = ((m.resumeDecision action full).post .changeDone 0
    (m.resumeDecision action full).needleParam).withChange none := rfl
  rw [ended]
  generalize m.resumeDecision action full = p at *
  obtain ⟨x, posts⟩ := p.post_eq .changeDone 0 p.needleParam
  rw [posts]
  exact ⟨rfl, needle, heads, repairs⟩

/-- The deadline of a change: the heads unconfirmed are lost, the inhibit check is made, and the change ends. -/
theorem State.changeDeadline_completes (change : s.change = some c) (live : c.deadline.isSome = true)
    (known : ∀ g ∈ c.confirm, g ∈ headNumbers) (idle : ∀ g ∈ c.confirm, (s.head g).state ≠ .active) :
    ∃ (v : State) (full : Option Nat), s.changeDeadline = (v.inhibitCheck headNumbers).1.concludeChange c.action full ∧
      v.run = { s.run with needle := c.target } ∧ v.repairs = s.repairs ∧ v.inhibit = s.inhibit ∧
      (∀ g ∈ c.confirm, (v.head g).state = .lost) ∧ ∀ g, g ∉ c.confirm → v.head g = s.head g := by
  have unconfirmed : ∀ g, g ∈ (headNumbers.filter fun g => c.confirm.contains g) ↔ g ∈ c.confirm := fun g => by
    rw [List.mem_filter, List.contains_iff_mem]
    exact and_iff_right_of_imp (known g)
  have loses := State.losesIdle_foldl (s := s) (cause := .needle) (l := headNumbers.filter fun g => c.confirm.contains g)
    fun g mem => idle g ((unconfirmed g).mp mem)
  have none : c.confirm.filter (fun k => decide (k ∉ headNumbers.filter fun g => c.confirm.contains g)) = [] :=
    List.filter_eq_nil_iff.mpr fun k mem out => of_decide_eq_true out ((unconfirmed k).mpr mem)
  have cleared := loses.change
  rw [change, Option.map_some, none] at cleared
  have expires : c.deadline ≠ .none := fun e => by
    rw [e] at live
    cases live
  have ended : s.changeDeadline = ((headNumbers.filter fun g => c.confirm.contains g).foldl
      (fun t g => t.loseHead g .needle) s).completeChange { c with confirm := [] } := by
    simp only [State.changeDeadline, change, if_neg expires]
    simp only [State.settleChange, cleared, if_true]
  generalize (headNumbers.filter fun g => c.confirm.contains g).foldl (fun t g => t.loseHead g .needle) s = u at *
  exact ⟨u.settledNeedle { c with confirm := [] }, _, ended.trans (State.completeChange_eq ..), by rw [← loses.run]; rfl,
    loses.repairs, loses.inhibit, fun g mem => loses.lost g ((unconfirmed g).mpr mem),
    fun g out => loses.others g ((unconfirmed g).not.mpr out)⟩

/-- The inhibit check of a REPAIR pass, where the head barred by the change is the only one that may act (R110, R152). -/
theorem State.changeDeadline_takesOut (change : s.change = some c) (live : c.deadline.isSome = true)
    (known : ∀ g ∈ c.confirm, g ∈ headNumbers) (mem : h ∈ headNumbers) (confirmed : h ∉ c.confirm)
    (active : (s.head h).state = .active) (needle : c.target ≠ 0) (row : (s.inhibitRow h).getLsbD c.target = true)
    (repair : s.run.pass = .repair)
    (idle : ∀ g ∈ headNumbers, g ≠ h → (s.head g).state ≠ .active ∧ (s.head g).state ≠ .heldNeedle)
    (room : s.skips < 24)
    (stretches : ∀ e ∈ s.entriesOf h, e.isSkip = true → e.toIndex = none ∧
      (e.toBlock = some s.run.colourBlock → e.sewing = true)) : let t := s.changeDeadline
    t.change = none ∧ t.run.needle = c.target ∧ (t.head h).state = .heldNeedle ∧
    (t.entriesOf h).Perm (s.newSkip h :: ((s.entriesOf h).filter fun e => !e.goesAt h s.run.colourBlock).map
      (RepairEntry.putOff h s.run.colourBlock)) ∧
    ∀ g, g ≠ h → (t.entriesOf g).Perm (s.entriesOf g) := by
  have apart : ∀ g ∈ c.confirm, g ≠ h := fun g mem same => confirmed (same ▸ mem)
  obtain ⟨v, full, ended, run, repairs, inhibit, lost, kept⟩ := State.changeDeadline_completes change live known
    fun g mem => (idle g (known g mem) (apart g mem)).1
  have stays : ∀ g ∈ headNumbers, g ≠ h → (v.head g).state ≠ .active ∧ (v.head g).state ≠ .heldNeedle := by
    intro g mem other
    by_cases gone : g ∈ c.confirm
    · rw [lost g gone]
      exact ⟨nofun, nofun⟩
    · rw [kept g gone]
      exact idle g mem other
  have entries : ∀ g, v.entriesOf g = s.entriesOf g := State.entriesOf_congr repairs
  have barred : v.barred h = true := by
    have same : v.inhibitRow h = s.inhibitRow h := by rw [State.inhibitRow, State.inhibitRow, inhibit]
    rw [State.barred, same, run, decide_eq_true needle, row]
    rfl
  obtain ⟨held, others, mine, theirs⟩ := State.checkHead_takesOut (s := v) (h := h) (by rw [kept h confirmed]; exact active)
    barred (by rw [run]; exact repair) (by rw [State.skips, repairs]; exact room) (by rw [run, entries]; exact stretches)
  have new : v.newSkip h = s.newSkip h := by rw [State.newSkip, run]; rfl
  rw [new, entries, run] at mine
  have target : (v.checkHead h).1.run.needle = c.target := by rw [(State.OnlyHeads.checkHead v h).run, run]
  rw [State.inhibitCheck_alone headNumbers_nodup mem stays others] at ended
  obtain ⟨gone, point, heads, list⟩ := (v.checkHead h).1.concludeChange_keeps c.action full
  rw [ended]
  generalize (v.checkHead h).1.concludeChange c.action full = t at *
  have left : ∀ g, t.entriesOf g = (v.checkHead h).1.entriesOf g := State.entriesOf_congr list
  refine ⟨gone, point.trans target, ?_, ?_, fun g other => ?_⟩
  · rw [State.head_congr heads]
    exact held
  · rw [left]
    exact mine
  · rw [left, ← entries]
    exact theirs g other

end Sys2Proof.Machine
end

section
/-! PROOF SUPPORT. The break of a head in a REPAIR pass (R136, R138, R152): its entries, its from-index, and the handover. -/

namespace Sys2Proof.Machine

open Sys2Proof

variable {s t u : State} {n h g f : Nat} {l : List Nat} {m : List RepairEntry}

/-! ### The entries of a head that breaks (R152) -/

/-- What a break with from-index `f` makes of an entry of its head. -/
def RepairEntry.brokenTo (f : Nat) (e : RepairEntry) : RepairEntry :=
  if e.sewing = true then
    { e with fromIndex := Nat.max e.fromIndex f, sewing := false, kind := if e.isFault = true then .fault .breakFault else e.kind }
  else if e.isFault = true then { e with fromIndex := f } else e

/-- The entries of a head after a break with from-index `f`. -/
def entriesBroken (h f : Nat) (m : List RepairEntry) : List RepairEntry :=
  if m.any (·.isFault) = true then m.map (RepairEntry.brokenTo f)
  else faultEntryOf h .breakFault f :: m.map (RepairEntry.brokenTo f)

theorem entriesBroken_perm {k : List RepairEntry} (same : k.Perm m) : (entriesBroken h f k).Perm (entriesBroken h f m) := by
  have any : k.any (·.isFault) = m.any (·.isFault) := by
    rw [Bool.eq_iff_iff, List.any_eq_true, List.any_eq_true]
    simp only [same.mem_iff]
  unfold entriesBroken
  rw [any]
  split
  · exact same.map _
  · exact (same.map _).cons _

/-- What a break of a head makes of an entry of the Repair List. -/
def RepairEntry.brokenFor (h f : Nat) (e : RepairEntry) : RepairEntry := if e.head = h then e.brokenTo f else e

theorem RepairEntry.brokenFor_head (h f : Nat) (e : RepairEntry) : (e.brokenFor h f).head = e.head := by
  unfold RepairEntry.brokenFor RepairEntry.brokenTo
  split
  · split
    · rfl
    · split <;> rfl
  · rfl

/-- A break in a REPAIR pass. -/
theorem State.faultEntry_repair (repair : s.run.pass = .repair) (h f : Nat) : s.faultEntry h .breakFault f =
    if (s.entriesOf h).any (·.isFault) = true then s.setRepairs (s.repairs.map (RepairEntry.brokenFor h f))
    else s.setRepairs (faultEntryOf h .breakFault f :: s.repairs.map (RepairEntry.brokenFor h f)) := by
  have own : (s.repairs.any fun e => decide (e.head = h) && e.isFault) = (s.entriesOf h).any (·.isFault) := by
    rw [State.entriesOf, List.any_filter]
  have each : ∀ e : RepairEntry, (if e.head ≠ h then e
      else if e.isFault = true then
        if e.sewing = true then { e with fromIndex := max e.fromIndex f, kind := .fault .breakFault, sewing := false }
        else { e with fromIndex := f }
      else if e.sewing = true then { e with fromIndex := max e.fromIndex f, sewing := false }
      else e) = e.brokenFor h f := by
    intro e
    unfold RepairEntry.brokenFor RepairEntry.brokenTo
    by_cases mine : e.head = h
    · rw [if_neg (not_not.mpr mine), if_pos mine]
      by_cases fault : e.isFault = true
      · simp only [fault, if_true]
      · simp only [fault, Bool.false_eq_true, if_false]
    · rw [if_pos mine, if_neg mine]
  simp only [State.faultEntry, repair, own, each]
  rfl

theorem State.entriesOf_faultEntry (repair : s.run.pass = .repair) (h f : Nat) :
    ((s.faultEntry h .breakFault f).entriesOf h).Perm (entriesBroken h f (s.entriesOf h)) := by
  have moved : ((s.repairs.map (RepairEntry.brokenFor h f)).filter fun e => decide (e.head = h)) =
      (s.entriesOf h).map (RepairEntry.brokenTo f) := by
    rw [filter_head_map (RepairEntry.brokenFor_head h f)]
    exact List.map_congr_left fun e mem => if_pos (State.mem_entriesOf.mp mem).2
  rw [State.faultEntry_repair repair, entriesBroken]
  split
  · exact (s.entriesOf_setRepairs _ h).trans (.of_eq moved)
  · refine (s.entriesOf_setRepairs _ h).trans (.of_eq ?_)
    rw [List.filter_cons_of_pos (a := faultEntryOf h .breakFault f) (decide_eq_true rfl), moved]

theorem State.entriesOf_faultEntry_other (repair : s.run.pass = .repair) (f : Nat) (other : g ≠ h) :
    ((s.faultEntry h .breakFault f).entriesOf g).Perm (s.entriesOf g) := by
  have moved := s.entriesOf_map_other (RepairEntry.brokenFor_head h f) (fun e apart => if_neg apart) other
  rw [State.faultEntry_repair repair]
  split
  · exact moved
  · refine (s.entriesOf_setRepairs _ g).trans ?_
    rw [List.filter_cons_of_neg (a := faultEntryOf h .breakFault f) fun own => other (of_decide_eq_true own).symm]
    exact (s.entriesOf_setRepairs _ g).symm.trans moved

/-! ### The fault action of a head in a REPAIR pass (R138) -/

/-- The from-index of a break in a REPAIR pass: no lower than the join index, no higher than the executed cursor. -/
def State.rejoinFrom (s : State) (h : Nat) : Nat :=
  Nat.min (Nat.max ((s.head h).lastMotion - s.constants.backstep) ((s.head h).joinIndex.getD 0)) s.run.cursor

theorem State.faultFrom_repair (repair : s.run.pass = .repair) (online : ¬ s.run.state.offline) (h : Nat) :
    s.faultFrom h .breakFault = s.rejoinFrom h := by
  have passed : ¬ (s.run.state = .idle ∨ s.run.state = .arming) := online
  simp only [State.faultFrom, repair, if_neg passed]
  rfl

theorem State.entriesOf_faultAction (repair : s.run.pass = .repair) (online : ¬ s.run.state.offline) (h : Nat) :
    ((s.faultAction h .breakFault).entriesOf h).Perm (entriesBroken h (s.rejoinFrom h) (s.entriesOf h)) := by
  obtain ⟨-, -, repairs⟩ := s.faultAction_parts h .breakFault
  have pass : (s.heldBy h .breakFault).run.pass = .repair := (State.OnlyHeads.setHeadState s h _ _).pass.trans repair
  rw [State.entriesOf_congr repairs, State.faultFrom_repair repair online]
  refine (State.entriesOf_faultEntry pass h _).trans (.of_eq ?_)
  rw [State.entriesOf_setHeadState]

theorem State.entriesOf_faultAction_other (repair : s.run.pass = .repair) (other : g ≠ h) :
    ((s.faultAction h .breakFault).entriesOf g).Perm (s.entriesOf g) := by
  obtain ⟨-, -, repairs⟩ := s.faultAction_parts h .breakFault
  have pass : (s.heldBy h .breakFault).run.pass = .repair := (State.OnlyHeads.setHeadState s h _ _).pass.trans repair
  rw [State.entriesOf_congr repairs]
  refine (State.entriesOf_faultEntry_other pass _ other).trans (.of_eq ?_)
  rw [State.entriesOf_setHeadState]

theorem State.entriesOf_breakAll_other (repair : s.run.pass = .repair) (out : h ∉ l) :
    ((s.breakAll l).entriesOf h).Perm (s.entriesOf h) := by
  induction l generalizing s with
  | nil => exact .refl _
  | cons g rest ih =>
    rw [List.mem_cons, not_or] at out
    have pass : (s.faultAction g .breakFault).run.pass = .repair := by
      rw [(State.OnlyFaults.faultAction s g .breakFault).run]
      exact repair
    exact (ih pass out.2).trans (State.entriesOf_faultAction_other repair out.1)

theorem State.rejoinFrom_congr (found : t.head h = s.head h) (constants : t.constants = s.constants)
    (cursor : t.run.cursor = s.run.cursor) : t.rejoinFrom h = s.rejoinFrom h := by
  rw [State.rejoinFrom, State.rejoinFrom, found, constants, cursor]

/-- A head among those that break, each visited once. -/
theorem State.breakAll_repair (repair : s.run.pass = .repair) (online : ¬ s.run.state.offline) (nodup : l.Nodup) (mem : h ∈ l) :
    (s.breakAll l).head h = { s.head h with state := .heldFault, cause := some (.thread .breakFault) } ∧
    ((s.breakAll l).entriesOf h).Perm (entriesBroken h (s.rejoinFrom h) (s.entriesOf h)) := by
  obtain ⟨pre, post, rfl⟩ := List.append_of_mem mem
  have before : h ∉ pre := fun m => (List.nodup_append.mp nodup).2.2 h m h List.mem_cons_self rfl
  have later : h ∉ post := (List.nodup_cons.mp (List.nodup_append.mp nodup).2.1).1
  have only := State.OnlyFaults.breakAll s pre
  have found := s.head_breakAll_other before
  have entries := State.entriesOf_breakAll_other repair before
  have back : (s.breakAll pre).rejoinFrom h = s.rejoinFrom h :=
    State.rejoinFrom_congr found only.constants (by rw [only.run])
  have pass : (s.breakAll pre).run.pass = .repair := by rw [only.run]; exact repair
  have moves : ¬ (s.breakAll pre).run.state.offline := by rw [only.run]; exact online
  rw [State.breakAll_append, State.breakAll_cons]
  generalize s.breakAll pre = u at found entries back pass moves
  have faulted : (u.faultAction h .breakFault).run.pass = .repair := by
    rw [(State.OnlyFaults.faultAction u h .breakFault).run]
    exact pass
  refine ⟨?_, ?_⟩
  · rw [← found]
    exact (State.head_breakAll_other _ later).trans (u.head_faultAction_same h .breakFault)
  · refine (State.entriesOf_breakAll_other faulted later).trans ((State.entriesOf_faultAction pass moves h).trans ?_)
    rw [back]
    exact entriesBroken_perm entries

/-! ### The handover in a REPAIR pass (R86, R136) -/

/-- What the handover of `n` STEPs makes of one head, and of its entries, in a REPAIR pass. -/
structure State.HandsBack (s t : State) (n h : Nat) : Prop where
  breaks : s.breaksAt n h → t.head h = { s.head h with
      state := .heldFault, cause := some (.thread .breakFault), noMotion := s.constants.motionLimit } ∧
    (t.entriesOf h).Perm (entriesBroken h (s.rejoinFrom h) (s.entriesOf h))
  whole : ¬ s.breaksAt n h → (t.entriesOf h).Perm (s.entriesOf h)
  posted : s.breaking n = [h] → t.posted [(.threadBreak, h, BitVec.ofNat 32 (s.rejoinFrom h % 2 ^ 18))]

theorem State.HandsBack.stops (handed : s.HandsBack t n h) (stops : t.StopsOnly u) : s.HandsBack u n h := by
  obtain ⟨st, r, b, a, rfl⟩ := stops
  exact ⟨handed.breaks, handed.whole, fun alone => (handed.posted alone).congr rfl rfl⟩

theorem State.handsBack_broken (repair : s.run.pass = .repair) (online : ¬ s.run.state.offline) (n : Nat)
    (mem : h ∈ headNumbers) : s.HandsBack (s.broken n) n h := by
  obtain ⟨z, counts⟩ := s.addStitches_heads n
  have counted := State.head_addStitches s n mem
  have entries : (s.addStitches n).entriesOf h = s.entriesOf h := State.entriesOf_congr (by rw [counts]; rfl) h
  have back : (s.addStitches n).rejoinFrom h = s.rejoinFrom h := by
    have motion : ((s.addStitches n).head h).lastMotion = (s.head h).lastMotion ∧
        ((s.addStitches n).head h).joinIndex = (s.head h).joinIndex := by
      rw [counted]
      split
      · exact ⟨rfl, rfl⟩
      · exact ⟨rfl, rfl⟩
    rw [State.rejoinFrom, State.rejoinFrom, motion.1, motion.2, counts]
    rfl
  have pass : (s.addStitches n).run.pass = .repair := by rw [counts]; exact repair
  have moves : ¬ (s.addStitches n).run.state.offline := by rw [counts]; exact online
  rw [State.broken_eq]
  refine ⟨fun breaks => ?_, fun whole => ?_, fun alone => ?_⟩
  · obtain ⟨head, list⟩ := State.breakAll_repair pass moves (s.breaking_nodup n) (State.mem_breaking.mpr ⟨mem, breaks⟩)
    rw [counted, if_pos breaks.1, Nat.min_eq_right breaks.2] at head
    rw [back, entries] at list
    exact ⟨head, list⟩
  · rw [← entries]
    exact State.entriesOf_breakAll_other pass fun m => whole (State.mem_breaking.mp m).2
  · have posted := State.posted_faultAction (s := s.addStitches n) (l := []) (fun _ => List.nil_suffix) (by decide) h .breakFault
    rw [State.faultFrom_repair pass moves, back, indexParam_eq] at posted
    rw [alone, State.breakAll_cons, State.breakAll_nil]
    exact posted

theorem State.handover_repair (repair : s.run.pass = .repair) (live : s.run.state = .running ∨ s.run.state = .stopping)
    (n : Nat) (mem : h ∈ headNumbers) : s.HandsBack (s.handover n) n h := by
  have online : ¬ s.run.state.offline := by
    rcases live with state | state <;> simp [state, RunState.offline]
  have handed := State.handsBack_broken repair online n mem
  by_cases breaks : s.breaks n
  · have kept : (s.broken n).run.state = s.run.state := by rw [(State.OnlyFaults.broken s n).run]
    rw [State.handover_breaks breaks]
    exact handed.stops (State.applyPolicy_live (by rw [kept]; exact live)).1
  · have none : s.breaking n = [] := not_not.mp fun some => breaks (State.breaks_iff.mpr some)
    have same : s.handover n = s.broken n := by
      rw [State.handover_whole breaks, State.broken_eq, none, State.breakAll_nil]
    rw [same]
    exact handed

end Sys2Proof.Machine
end

section
/-! PROOF. O42: the completion of a record in a REPAIR pass (R151), the break that follows it, and the four claims together. -/

namespace Sys2Proof.Machine

open Sys2Proof

variable {s t u : State} {k : Token} {h g : Nat} {l : List Nat}

/-! ### One head while others are visited (R149, R152) -/

/-- A head is found as it was, with the entries it had. -/
def State.KeepsHead (s t : State) (h : Nat) : Prop := t.head h = s.head h ∧ (t.entriesOf h).Perm (s.entriesOf h)

theorem State.KeepsHead.refl (s : State) (h : Nat) : s.KeepsHead s h := ⟨rfl, .refl _⟩

theorem State.KeepsHead.trans (a : s.KeepsHead t h) (b : t.KeepsHead u h) : s.KeepsHead u h :=
  ⟨b.1.trans a.1, b.2.trans a.2⟩

theorem State.keepsHead_returnHead (s : State) (other : h ≠ g) : s.KeepsHead (s.returnHead g) h := by
  unfold State.returnHead
  split
  · exact ⟨s.head_changeHead_other .active none other, s.entriesOf_changeHead .active none other⟩
  · have undeferred : s.KeepsHead (s.undefer g) h := by
      refine ⟨State.setRepairs_head .., s.entriesOf_map_other (fun e => ?_) (fun e apart => if_neg fun own => apart own.1) other⟩
      split <;> rfl
    exact undeferred.trans ⟨State.head_placeHead_other _ g h other, State.entriesOf_placeHead _ other⟩

/-! ### The entries at a completion (R151) -/

/-- The entries with those marked that begin at the executed cursor and whose head is ACTIVE. -/
def State.entriesMarked (s : State) : List RepairEntry :=
  s.repairs.map fun e => if (s.head e.head).state = .active ∧ e.fromIndex = s.run.cursor then { e with sewing := true } else e

/-- The entries left once those are marked and the stretches sewn are removed. -/
def State.entriesKept (s : State) : List RepairEntry := s.entriesMarked.filter fun e => !s.isSewn e

/-- A head is placed again: a stretch of its own is sewn, and no entry of its own is being sewn any more. -/
def State.placedAgain (s : State) (h : Nat) : Prop :=
  (∃ e ∈ s.entriesMarked, e.head = h ∧ s.isSewn e = true) ∧ ∀ e ∈ s.entriesKept, e.head = h → e.sewing = false

/-- The visit of a head of which a stretch is sewn. -/
def State.resettle (s : State) (h : Nat) : State :=
  if (s.repairs.any fun e => decide (e.head = h) && e.sewing) = true then s else s.returnHead h

theorem State.OnlyHeads.resettle (s : State) (h : Nat) : s.OnlyHeads (s.resettle h) := by
  unfold State.resettle
  split
  · exact .refl s
  · exact .returnHead s h

theorem State.keepsHead_resettle (s : State) (other : h ≠ g) : s.KeepsHead (s.resettle g) h := by
  unfold State.resettle
  split
  · exact .refl s h
  · exact s.keepsHead_returnHead other

/-- A head with an entry being sewn is left where it is. -/
theorem State.resettle_sews {e : RepairEntry} (mem : e ∈ s.entriesOf h) (sews : e.sewing = true) : s.resettle h = s := by
  obtain ⟨listed, own⟩ := State.mem_entriesOf.mp mem
  exact if_pos (List.any_eq_true.mpr ⟨e, listed, by rw [decide_eq_true own, sews]; rfl⟩)

/-- The visits leave a head that is not visited, or that has an entry being sewn. -/
theorem State.keepsHead_resettleAll (stays : h ∈ l → ∃ e ∈ s.entriesOf h, e.sewing = true) :
    s.KeepsHead (l.foldl State.resettle s) h := by
  induction l generalizing s with
  | nil => exact .refl s h
  | cons g rest ih =>
    rw [List.foldl_cons]
    by_cases same : h = g
    · obtain ⟨e, mem, sews⟩ := stays (same ▸ List.mem_cons_self)
      rw [← same, State.resettle_sews mem sews]
      exact ih fun later => stays (List.mem_cons_of_mem g later)
    · have first := s.keepsHead_resettle same
      refine first.trans (ih fun later => ?_)
      obtain ⟨e, mem, sews⟩ := stays (List.mem_cons_of_mem g later)
      exact ⟨e, first.2.mem_iff.mpr mem, sews⟩

/-- Before the list is looked at for emptiness. -/
theorem State.passUpdate_eq (s : State) : ∃ (losers : List Nat) (p : State),
    s.passUpdate = (losers.foldl State.resettle p).checkPassEmptied ∧ s.OnlyHeads p ∧ (∀ h, p.head h = s.head h) ∧ p.repairs.Perm s.entriesKept ∧
    ∀ h ∈ losers, ∃ e ∈ s.entriesMarked, e.head = h ∧ s.isSewn e = true := by
  let marked := s.setRepairs s.entriesMarked
  have sewn : ∀ e, marked.isSewn e = s.isSewn e := fun e => by
    have run := (State.OnlyHeads.setRepairs s s.entriesMarked).run
    rw [State.isSewn, State.isSewn, State.passed, State.passed, run]
  refine ⟨headNumbers.filter fun h => marked.repairs.any fun e => decide (e.head = h) && marked.isSewn e,
    marked.setRepairs (marked.repairs.filter fun e => !marked.isSewn e), rfl,
    (State.OnlyHeads.setRepairs s _).trans (.setRepairs marked _), fun h => ?_, ?_, fun h mem => ?_⟩
  · rw [State.setRepairs_head, State.setRepairs_head]
  · rw [State.setRepairs_repairs]
    refine (sortEntries_perm _).trans ?_
    simp only [sewn]
    rw [State.setRepairs_repairs]
    exact (sortEntries_perm _).filter _
  · obtain ⟨e, listed, found⟩ := List.any_eq_true.mp (List.mem_filter.mp mem).2
    rw [Bool.and_eq_true, decide_eq_true_eq, sewn] at found
    rw [State.setRepairs_repairs, mem_sortEntries] at listed
    exact ⟨e, listed, found⟩

theorem State.requestStop_repairDone (live : s.run.state = .running ∨ s.run.state = .stopping) :
    s.StopsOnly (s.requestStop .repairDone) ∧
    ((s.requestStop .repairDone).run.state = .running ∨ (s.requestStop .repairDone).run.state = .stopping) := by
  rcases live with running | stopping
  · obtain ⟨b, a, e⟩ := s.setRunState_eq .stopping
    have asked : s.requestStop .repairDone = (s.setRunState .stopping).setStopReason .repairDone := by
      simp only [State.requestStop, running]
    rw [asked, e]
    exact ⟨⟨.stopping, .repairDone, b, a, rfl⟩, .inr rfl⟩
  · have asked : s.requestStop .repairDone = if s.run.stopReason ≠ .memory then s.setStopReason .repairDone else s := by
      simp only [State.requestStop, stopping, true_and]
    rw [asked]
    split
    · exact ⟨⟨s.run.state, .repairDone, s.seq.buffer, s.arbiter, rfl⟩, .inr stopping⟩
    · exact ⟨.refl s, .inr stopping⟩

/-- In a run that moves, an emptied list stops the run and does nothing else. -/
theorem State.checkPassEmptied_live (live : s.run.state = .running ∨ s.run.state = .stopping) :
    s.StopsOnly s.checkPassEmptied ∧ (s.checkPassEmptied.run.state = .running ∨ s.checkPassEmptied.run.state = .stopping) := by
  unfold State.checkPassEmptied
  split
  · have asks : s.passEmptied = s.requestStop .repairDone := by
      rcases live with state | state
      · simp only [State.passEmptied, state]
      · simp only [State.passEmptied, state]
    rw [asks]
    exact State.requestStop_repairDone live
  · exact ⟨.refl s, live⟩

/-- What a completion in the middle of a REPAIR pass leaves: the constants, the point, a run that moves, and each head that
is not placed again. -/
structure State.SewsOn (s t : State) : Prop where
  constants : t.constants = s.constants
  cursor : t.run.cursor = s.run.cursor
  pass : t.run.pass = s.run.pass
  live : t.run.state = .running ∨ t.run.state = .stopping
  heads : ∀ h, ¬ s.placedAgain h → t.head h = s.head h
  entries : ∀ h, ¬ s.placedAgain h → (t.entriesOf h).Perm (s.entriesKept.filter fun e => decide (e.head = h))

theorem State.sewsOn_passUpdate (live : s.run.state = .running ∨ s.run.state = .stopping) : s.SewsOn s.passUpdate := by
  obtain ⟨losers, p, ended, only, heads, kept, sewn⟩ := s.passUpdate_eq
  have settled : p.OnlyHeads (losers.foldl State.resettle p) := .foldl State.OnlyHeads.resettle losers p
  have both := only.trans settled
  have keeps : ∀ h, ¬ s.placedAgain h → p.KeepsHead (losers.foldl State.resettle p) h := fun h stays => by
    refine State.keepsHead_resettleAll fun mem => ?_
    by_contra none
    refine stays ⟨sewn h mem, fun e listed own => Bool.eq_false_iff.mpr fun sews => none ⟨e, ?_, sews⟩⟩
    exact State.mem_entriesOf.mpr ⟨kept.mem_iff.mpr listed, own⟩
  rw [ended]
  generalize losers.foldl State.resettle p = q at *
  have state : q.run.state = s.run.state := by rw [both.run]
  obtain ⟨stops, moves⟩ := State.checkPassEmptied_live (state ▸ live)
  have constants := both.constants
  have cursor := both.cursor
  have pass := both.pass
  obtain ⟨st, r, b, a, e⟩ := stops
  rw [e] at moves ⊢
  exact ⟨constants, cursor, pass, moves, fun h stays => (keeps h stays).1.trans (heads h),
    fun h stays => (keeps h stays).2.trans (kept.filter _)⟩

theorem State.SewsOn.of_perm (sews : u.SewsOn t) (only : s.OnlyHeads u) (heads : ∀ h, u.head h = s.head h)
    (listed : u.repairs.Perm s.repairs) : s.SewsOn t := by
  have sewn : u.isSewn = s.isSewn := funext fun e => by
    rw [State.isSewn, State.isSewn, State.passed, State.passed, only.run]
  have marked : u.entriesMarked.Perm s.entriesMarked := by
    have each : u.entriesMarked = u.repairs.map fun e =>
        if (s.head e.head).state = .active ∧ e.fromIndex = s.run.cursor then { e with sewing := true } else e := by
      rw [State.entriesMarked, only.cursor]
      simp only [heads]
    rw [each]
    exact listed.map _
  have kept : u.entriesKept.Perm s.entriesKept := by
    rw [State.entriesKept, State.entriesKept, sewn]
    exact marked.filter _
  have again : ∀ h, u.placedAgain h ↔ s.placedAgain h := fun h => by
    simp only [State.placedAgain, sewn, marked.mem_iff, kept.mem_iff]
  exact ⟨sews.constants.trans only.constants, sews.cursor.trans only.cursor, sews.pass.trans only.pass, sews.live,
    fun h stays => (sews.heads h ((again h).not.mpr stays)).trans (heads h),
    fun h stays => (sews.entries h ((again h).not.mpr stays)).trans (kept.filter _)⟩

/-! ### One record completed in the middle of a REPAIR pass (R85, R147, R151, R152) -/

/-- Entries are written over as they are. -/
theorem State.setRepairs_same (s : State) {f : RepairEntry → RepairEntry} (same : ∀ e, f e = e) :
    (s.setRepairs (s.repairs.map f)).repairs.Perm s.repairs := by
  rw [State.setRepairs_repairs, funext same, List.map_id']
  exact sortEntries_perm _

/-- Neither a COLOUR halt nor the END record: R147 and R152 have nothing to say. -/
theorem State.told_plain (plain : k.reason = none) (within : s.run.cursor ≠ s.designLength) :
    let u := (s.fixToIndex k).moveDeferred k
    s.OnlyHeads u ∧ (∀ h, u.head h = s.head h) ∧ u.repairs.Perm s.repairs := by
  have only : s.OnlyHeads (s.fixToIndex k) := .setRepairs s _
  have fixed : (s.fixToIndex k).repairs.Perm s.repairs := s.setRepairs_same fun e => by
    simp only [plain, within, reduceCtorEq, decide_false, Bool.false_eq_true, false_and, and_false, if_false]
  have heads : ∀ h, (s.fixToIndex k).head h = s.head h := fun h => State.setRepairs_head ..
  have apart : (s.fixToIndex k).run.cursor ≠ (s.fixToIndex k).designLength := by
    rw [only.eq]
    exact within
  generalize s.fixToIndex k = v at *
  have moved : (v.moveDeferred k).repairs.Perm v.repairs := by
    have none : (v.repairs.filter fun e => !(decide (v.run.cursor = v.designLength) &&
        decide (e.deferred = some v.armedRecord.colourCount))) = v.repairs := by
      rw [decide_eq_false apart]
      exact List.filter_eq_self.mpr fun _ _ => rfl
    rw [State.moveDeferred, none]
    refine v.setRepairs_same fun e => ?_
    simp only [plain, reduceCtorEq, decide_false, Bool.false_eq_true, false_and, if_false]
  exact ⟨only.trans (.setRepairs v _), fun h => (State.setRepairs_head ..).trans (heads h), moved.trans fixed⟩

theorem State.sewsOn_repairCursorMoved (plain : k.reason = none) (within : s.run.cursor ≠ s.designLength)
    (repair : s.run.pass = .repair) (live : s.run.state = .running ∨ s.run.state = .stopping) :
    s.SewsOn (s.repairCursorMoved k) := by
  obtain ⟨only, heads, listed⟩ := State.told_plain (s := s) plain within
  have moved : s.repairCursorMoved k = ((s.fixToIndex k).moveDeferred k).passUpdate := by
    simp only [State.repairCursorMoved, only.pass, repair]
  rw [moved]
  exact (State.sewsOn_passUpdate (by rw [only.run]; exact live)).of_perm only heads listed

/-- What a record completed with one STEP leaves of a head that is not placed again: `s` is the state in which the record
has been passed. -/
structure State.SewnRecord (s t : State) (h : Nat) : Prop where
  breaks : s.breaksAt 1 h → t.head h = { s.head h with
      state := .heldFault, cause := some (.thread .breakFault), noMotion := s.constants.motionLimit } ∧
    (t.entriesOf h).Perm (entriesBroken h (s.rejoinFrom h) (s.entriesKept.filter fun e => decide (e.head = h)))
  whole : ¬ s.breaksAt 1 h → (t.entriesOf h).Perm (s.entriesKept.filter fun e => decide (e.head = h))
  posted : s.breaksAt 1 h → (∀ g ∈ headNumbers, g ≠ h → ¬ s.placedAgain g ∧ ¬ s.breaksAt 1 g) →
    t.posted [(.threadBreak, h, BitVec.ofNat 32 (s.rejoinFrom h % 2 ^ 18))]

theorem State.SewsOn.handover (sews : s.SewsOn t) (repair : s.run.pass = .repair) (mem : h ∈ headNumbers)
    (stays : ¬ s.placedAgain h) : s.SewnRecord (t.handover 1) h := by
  have breaks : ∀ g, ¬ s.placedAgain g → (t.breaksAt 1 g ↔ s.breaksAt 1 g) := fun g stays => by
    rw [State.breaksAt, State.breaksAt, sews.heads g stays, sews.constants]
  have handed := State.handover_repair (sews.pass.trans repair) sews.live 1 mem
  have back : t.rejoinFrom h = s.rejoinFrom h :=
    State.rejoinFrom_congr (sews.heads h stays) sews.constants sews.cursor
  refine ⟨fun broken => ?_, fun whole => ?_, fun broken alone => ?_⟩
  · obtain ⟨head, list⟩ := handed.breaks ((breaks h stays).mpr broken)
    rw [sews.heads h stays, sews.constants] at head
    rw [back] at list
    exact ⟨head, list.trans (entriesBroken_perm (sews.entries h stays))⟩
  · exact (handed.whole ((breaks h stays).not.mpr whole)).trans (sews.entries h stays)
  · have one : t.breaking 1 = [h] := by
      have only : ∀ g ∈ headNumbers, decide (t.breaksAt 1 g) = (g == h) := fun g mem => by
        by_cases same : g = h
        · rw [same, decide_eq_true ((breaks h stays).mpr broken), beq_self_eq_true]
        · obtain ⟨settled, whole⟩ := alone g mem same
          rw [decide_eq_false ((breaks g settled).not.mpr whole), beq_eq_false_iff_ne.mpr same]
      rw [State.breaking, List.filter_congr only, List.filter_beq, List.count_eq_one_of_mem headNumbers_nodup mem]
      rfl
    rw [← back]
    exact handed.posted one

/-! ### DONE at the STEP that ends a record -/

/-- A token that ends its record and closes no block has been passed. -/
theorem State.movedTo_last (s : State) (last : k.lastOfRecord = true) (plain : k.reason = none) : s.movedTo k = { s with
    queue := { s.queue with issued := s.queue.issued.tail },
    run := { s.run with frame := k.frameAfter, cursor := k.index + 1, design := k.designAfter } } := by
  simp only [State.movedTo, last, plain, reduceCtorEq, and_false, if_true, if_false]
  rfl

theorem State.completeReport_one {after : List Token} (issued : s.queue.issued = k :: after) (step : k.kind = .step)
    (last : k.lastOfRecord = true) :
    s.completeReport 1 = (((s.movedTo k).repairCursorMoved k).dated k.seq).handover 1 := by
  have one : stepsIn (s.queue.issued.take 1) = 1 := by
    rw [issued, List.take_succ_cons, List.take_zero, stepsIn, List.filter_cons_of_pos (by rw [step]; decide)]
    rfl
  rw [State.completeReport, State.completeTokens_cons 0 issued, one, State.completeFirst_last last]
  rfl

/-- The STEP that ends a record in the middle of a REPAIR pass. -/
theorem State.completeReport_repair {after : List Token} (repair : s.run.pass = .repair)
    (live : s.run.state = .running ∨ s.run.state = .stopping) (issued : s.queue.issued = k :: after) (step : k.kind = .step)
    (last : k.lastOfRecord = true) (plain : k.reason = none) (within : k.index + 1 < s.designLength) :
    (s.completeReport 1).run.cursor = k.index + 1 ∧
    ∀ h ∈ headNumbers, ¬ (s.movedTo k).placedAgain h → (s.movedTo k).SewnRecord (s.completeReport 1) h := by
  have moved := s.movedTo_last last plain
  rw [State.completeReport_one issued step last]
  generalize s.movedTo k = u at *
  have length : u.designLength = s.designLength := by rw [moved]; rfl
  have cursor : u.run.cursor = k.index + 1 := by rw [moved]
  have pass : u.run.pass = .repair := by rw [moved]; exact repair
  have sews : u.SewsOn (u.repairCursorMoved k) :=
    State.sewsOn_repairCursorMoved plain (by rw [length, cursor]; exact Nat.ne_of_lt within) pass (by rw [moved]; exact live)
  have dated : u.SewsOn ((u.repairCursorMoved k).dated k.seq) :=
    ⟨sews.constants, sews.cursor, sews.pass, sews.live, sews.heads, sews.entries⟩
  refine ⟨?_, fun h mem stays => dated.handover pass mem stays⟩
  rw [(State.OnlyReport.handover _ 1).eq]
  exact dated.cursor.trans cursor

/-- DONE names the STEP that ends a record in the middle of a REPAIR pass. -/
theorem State.doneInRepair {after : List Token} (takes : s.takesFrame .m = true) (repair : s.run.pass = .repair)
    (live : s.run.state = .running ∨ s.run.state = .stopping) (issued : s.queue.issued = k :: after) (step : k.kind = .step)
    (last : k.lastOfRecord = true) (plain : k.reason = none) (within : k.index + 1 < s.designLength) :
    let t := s.onFrame .m fun t => t.doneReport k.seq
    t.run.cursor = k.index + 1 ∧
    ∀ h ∈ headNumbers, ¬ ((s.framedOn .m).movedTo k).placedAgain h → ((s.framedOn .m).movedTo k).SewnRecord t h := by
  have first : s.queue.issued = ([] ++ [k]) ++ after := issued
  have still : ∀ x ∈ [] ++ [k], x.kind ≠ .halt := fun x mem => by
    rw [List.mem_singleton.mp mem, step]
    nofun
  have ran := (State.donePlain_onFrame (n := k.seq) takes first rfl (fun x mem => nomatch mem) still).1
  have count : ([] ++ [k]).length = 1 := rfl
  rw [count] at ran
  have rest : (s.framedOn .m).run = s.run ∧ (s.framedOn .m).queue = s.queue ∧
      (s.framedOn .m).designLength = s.designLength := ⟨rfl, rfl, rfl⟩
  obtain ⟨run, queue, length⟩ := rest
  obtain ⟨cursor, sewn⟩ := State.completeReport_repair (s := s.framedOn .m) (run ▸ repair) (run ▸ live) (queue ▸ issued) step
    last plain (length ▸ within)
  obtain ⟨p, m, replied⟩ := ((s.framedOn .m).completeReport 1).reply_ports .m .ok
    (beBytes 1 1 ++ beBytes 3 ((s.framedOn .m).completeReport 1).run.cursor)
  rw [State.reportReply, replied] at ran
  dsimp only
  rw [ran]
  generalize (s.framedOn .m).completeReport 1 = c at *
  refine ⟨cursor, fun h mem stays => ?_⟩
  obtain ⟨breaks, whole, posted⟩ := sewn h mem stays
  exact ⟨breaks, whole, fun broken alone => (posted broken alone).congr rfl rfl⟩

/-- The state in which the record of a token has been passed, as its frame leaves the rest. -/
theorem State.passedRecord_eq (s : State) (last : k.lastOfRecord = true) (plain : k.reason = none) :
    ∃ a p m q, (s.framedOn .m).movedTo k = { s with
      arbiter := a, portP := p, portM := m, queue := q,
      run := { s.run with frame := k.frameAfter, cursor := k.index + 1, design := k.designAfter } } := by
  obtain ⟨a, p, m, framed⟩ := s.framedOn_eq .m
  exact ⟨a, p, m, _, by rw [State.movedTo_last _ last plain, framed]⟩

/-! ### O42 -/

/-- The entries of a head taken out, where every stretch of its own is being sewn and ends no lower than the block entered. -/
theorem State.entriesPutOff_eq (stretches : ∀ e ∈ s.repairs, e.head = h → e.isSkip = true →
      e.sewing = true ∧ e.toIndex = none ∧ ∃ b, e.toBlock = some b ∧ s.run.colourBlock ≤ b) :
    ((s.entriesOf h).filter fun e => !e.goesAt h s.run.colourBlock).map (RepairEntry.putOff h s.run.colourBlock) =
      ((s.entriesOf h).filter fun e => !(e.sewing && e.isSkip && decide (e.toBlock = some s.run.colourBlock))).map fun e =>
        if e.sewing = true then { e with sewing := false, deferred := some s.run.colourBlock } else e := by
  have goes : ∀ e ∈ s.entriesOf h, (!e.goesAt h s.run.colourBlock) =
      !(e.sewing && e.isSkip && decide (e.toBlock = some s.run.colourBlock)) := fun e mem => by
    rw [RepairEntry.goesAt, decide_eq_true (State.mem_entriesOf.mp mem).2, Bool.true_and]
  rw [List.filter_congr goes]
  refine List.map_congr_left fun e kept => ?_
  obtain ⟨mem, stays⟩ := List.mem_filter.mp kept
  obtain ⟨listed, own⟩ := State.mem_entriesOf.mp mem
  unfold RepairEntry.putOff
  by_cases sews : e.sewing = true
  · have later : (e.isFault || decide (s.run.colourBlock < e.toBlock.getD 0)) = true := by
      cases kind : e.kind with
      | fault cause => rw [RepairEntry.isFault, kind, Bool.true_or]
      | skip =>
        have skip : e.isSkip = true := by rw [RepairEntry.isSkip, kind]
        obtain ⟨-, -, b, block, reaches⟩ := stretches e listed own skip
        rw [sews, skip, block] at stays
        have apart : b ≠ s.run.colourBlock := fun same => by simp [same] at stays
        rw [block, Option.getD_some, decide_eq_true (Nat.lt_of_le_of_ne reaches apart.symm), Bool.or_true]
    rw [if_pos ⟨own, sews⟩, if_pos sews, if_pos later]
  · rw [if_neg fun both => sews both.2, if_neg sews]

/-- Settles O42: the DONE of a record in a REPAIR pass and its break, the inhibit check at a deadline, HEAD_ON of the last
entry, and the end of the walk that finds the list emptied. -/
theorem repairPassFaultAndInhibit : Obligations.RepairPassFaultAndInhibit := by
  refine ⟨fun s k after takes repair live issued step last plain within => ⟨_, rfl, ?_⟩,
    fun s c h power repair _ change deadline known mem confirmed active needle row idle room stretches =>
      ⟨s.changeDeadline, ?_, ?_⟩,
    fun s h takes mem held free repair some last still =>
      ⟨_, rfl, State.emptied_headOn takes mem held free repair some last still⟩,
    fun s port w takes walking walk noSkips empty repair => ⟨_, rfl, ?_⟩⟩
  · obtain ⟨cursor, sewn⟩ := State.doneInRepair takes repair live issued step last plain within
    obtain ⟨a, p, m, q, moved⟩ := s.passedRecord_eq last plain
    rw [moved] at sewn
    refine ⟨cursor, fun h mem => ⟨fun stays active reaches => ?_, fun stays whole => (sewn h mem stays).whole whole⟩⟩
    obtain ⟨breaks, -, posted⟩ := sewn h mem stays
    obtain ⟨head, entries⟩ := breaks ⟨active, reaches⟩
    refine ⟨head, entries, fun alone => posted ⟨active, reaches⟩ fun g mem other => ?_⟩
    obtain ⟨goes, unsewn⟩ := alone g mem other
    refine ⟨fun ⟨⟨e, listed, own, sews⟩, _⟩ => ?_, fun ⟨active, reaches⟩ => Nat.not_lt.mpr reaches (goes active)⟩
    exact Bool.false_ne_true ((unsewn e listed own).symm.trans sews)
  · exact congrArg Host.Outcome.next (s.onEvent_acts State.changeDeadline power)
  · have listed : ∀ e ∈ s.entriesOf h, e.isSkip = true → e.toIndex = none ∧
        (e.toBlock = some s.run.colourBlock → e.sewing = true) := fun e mem skip => by
      obtain ⟨mem, own⟩ := State.mem_entriesOf.mp mem
      obtain ⟨sews, endless, -⟩ := stretches e mem own skip
      exact ⟨endless, fun _ => sews⟩
    have left := State.changeDeadline_takesOut change deadline known mem confirmed active needle row repair idle room listed
    rw [State.entriesPutOff_eq stretches] at left
    exact left
  · obtain ⟨ended, cursor, left⟩ := State.emptied_stop takes walking walk noSkips empty repair
    rw [walkParam_eq] at left
    exact ⟨ended, cursor, left⟩

end Sys2Proof.Machine
end
